-- ==== Sys2Proof/Word.lean ====
section
/-! DEFINITION. The word types of the block and the two small sets of names (strips, modes) the spec's rules range over. -/

namespace Sys2Proof

/-- A ROM byte, an operation code, the control byte or a priority-table entry (8 bits). -/
abbrev Byte := BitVec 8

/-- A register-array word, a palette offset, `XOFF` or a palette index (16 bits: R12, R17, R19, R21). -/
abbrev Word16 := BitVec 16

/-- A host byte address, an address cursor, a data operand or a response (32 bits: R50). -/
abbrev Word32 := BitVec 32

/-- A surface code: bit 0 from ROM plane A, bit 1 from plane B, bit 2 the stripe marker (R59). -/
abbrev Code := BitVec 3

/-- A horizontal position: a place in the 4096-wide circular space (R24, R55). -/
abbrev Column := BitVec 12

/-- A transaction word, `op[71:64] addr[63:32] data[31:0]` (R50). -/
abbrev Transaction := BitVec 72

/-- The two road strips (R8: `s` ranges over 0 and 1). -/
inductive Strip where
  | zero
  | one
deriving DecidableEq, Repr

/-- The four compositing modes `CTRL[1:0]` selects (R53). -/
inductive Mode where
  /-- Mode 0: strip 0 only. -/
  | strip0Only
  /-- Mode 1: both strips, first priority table, the background prefers strip 0. -/
  | preferStrip0
  /-- Mode 2: both strips, second priority table, the background prefers strip 1. -/
  | preferStrip1
  /-- Mode 3: strip 1 only. -/
  | strip1Only
deriving DecidableEq, Repr

end Sys2Proof
end

