-- ==== Sys2Proof/Machine/Flags.lean ====
section
/-! DEFINITION. The conditions the compositors test. The block has no flags or condition codes (R26): each condition is a bit of a data word, evaluated afresh on every line. -/

namespace Sys2Proof.Machine

/-- `SOLID`, bit 11 of a per-line control word (R54). -/
def solid (d : Word16) : Bool := d.getLsbD 11

/-- `STRIPE_VIS`, bit 9 of a per-line control word (R54): the test `data & 0x200`. -/
def stripeVisible (d : Word16) : Bool := d.getLsbD 9

/-- `DIRECT`, bit 2 of the control byte (R53). -/
def direct (ctrl : Byte) : Bool := ctrl.getLsbD 2

/-- RFG draws nothing on a line whose strips are both solid (R91), on a mode-0 line whose strip 0 is solid and on a mode-3 line whose strip 1 is solid (R96). -/
def foregroundSkips (mode : Mode) (d0 d1 : Word16) : Bool :=
  (solid d0 && solid d1)
    || (decide (mode = .strip0Only) && solid d0)
    || (decide (mode = .strip1Only) && solid d1)

end Sys2Proof.Machine
end

