-- ==== Sys2Proof/Config.lean ====
section
/-! DEFINITION. The parameters of the block (R6) as one structure, and the values nothing in Lean can evaluate: the ROM of `State.reset` and the colour-table entries that have no value. The default values of the parameters are in Machine/Params.lean. -/

namespace Sys2Proof

/-- The parameters that exist once per strip (R6). -/
structure StripParams where
  /-- `HS0_BASE` or `HS1_BASE`: word offset of the strip's horizontal-position table (R34, decision D6). -/
  hsBase : Nat
  /-- `SEL[s][0]`, the selector of code 0 (R93, decision D9). -/
  sel0 : Word16
  /-- `SEL[s][1]`, the selector of code 1. -/
  sel1 : Word16
  /-- `SEL[s][2]`, the selector of code 2. -/
  sel2 : Word16
  /-- `SEL[s][3]`, the selector of code 7 (stripe). -/
  sel7 : Word16
  /-- `BGSEL[s]`, the selector of the background-fallback colour (R93, decision D9). -/
  bgSel : Word16
deriving DecidableEq, Repr

/-- The parameters of R6 whose kind is "parameter": arguments of the model, fixed while it runs. -/
structure Config where
  /-- The `ROM_LEN` bytes of the road ROM; `ROM_LEN` is the array's size (R22, R38, decision D4). -/
  rom : Array Byte
  /-- Strip 0's parameters. -/
  strip0 : StripParams
  /-- Strip 1's parameters. -/
  strip1 : StripParams
  /-- `COL_BASE`: word offset of the colour-select table (R34, decision D6). -/
  colBase : Nat
  /-- `DIRECT_BIAS1`: added to `y` to index strip 1's tables in direct mode (R35, decision D7). -/
  directBias1 : Nat
  /-- `PHASE`: the fixed phase constant (R94, decision D11). -/
  phase : Nat
  /-- `PRIO[0]`, the priority row of mode 1 (R20, R97, decision D12). -/
  prioMode1 : Vector Byte 8
  /-- `PRIO[1]`, the priority row of mode 2. -/
  prioMode2 : Vector Byte 8
  /-- `SENTINEL`: what the control-register read returns (R76, decision D13). -/
  sentinel : Word16
  /-- `OFF1_RESET` (R17, decision D14). -/
  off1Reset : Word16
  /-- `OFF2_RESET`. -/
  off2Reset : Word16
  /-- `OFF3_RESET`. -/
  off3Reset : Word16
deriving DecidableEq, Repr

/-- Free value: the first byte of the road ROM `State.reset` was made with. `ROM` has no default (R6), and `ROM_LEN` is at least 1. -/
opaque Config.romFirstByte : Byte

/-- Free value: the other bytes of that ROM, as many as there are. -/
opaque Config.romOtherBytes : List Byte

/-- Free value: entries 4, 5 and 6 of a colour table, which "are never read and have no value" (R23, U11). -/
opaque Config.missingColour : Code → Word16

end Sys2Proof
end

