-- ==== Sys2Proof/Machine/Operands.lean ====
section
/-! DEFINITION. The operand forms: the fields of the words the block interprets, and the address arithmetic of the host window. -/

namespace Sys2Proof.Machine

/-- The word index a host byte address selects: `(addr >> 1) mod 2048` (R31). -/
def windowIndex (addr : Word32) : Nat := (addr >>> 1).toNat % 2048

/-- `value[31:16]`, the half of a dword that goes to the lower address (R36(b), R51). -/
def highHalf (value : Word32) : Word16 := value.extractLsb' 16 16

/-- `value[15:0]`, the half that goes two bytes higher. -/
def lowHalf (value : Word32) : Word16 := value.extractLsb' 0 16

/-- A cursor advanced by `bytes`, modulo 2^32 (R74, R75, decision D3). -/
def advance (cursor : Word32) (bytes : Nat) : Word32 := cursor + BitVec.ofNat 32 bytes

/-- `MODE`, `CTRL[1:0]` (R53). -/
def modeOf (ctrl : Byte) : Mode :=
  match (ctrl.extractLsb' 0 2).toNat with
  | 0 => .strip0Only
  | 1 => .preferStrip0
  | 2 => .preferStrip1
  | _ => .strip1Only

/-- `ROW`, bits 8:1 of a control word (R54). -/
def rowField (d : Word16) : Nat := (d.extractLsb' 1 8).toNat

/-- `INDEX`, bits 8:0 of a control word (R54). -/
def indexField (d : Word16) : Nat := (d.extractLsb' 0 9).toNat

/-- `SKY`, bits 6:0 of a control word (R54). -/
def skyField (d : Word16) : BitVec 7 := d.extractLsb' 0 7

/-- The 12-bit position of a horizontal-position word; bits 15:12 are dropped (R55). -/
def positionField (w : Word16) : Column := w.extractLsb' 0 12

/-- The place of a strip's four colour bits in a colour-select word: bits 3:0 for strip 0, bits 7:4 for strip 1 (R57, decision D8). -/
def colourBitBase : Strip → Nat
  | .zero => 0
  | .one => 4

/-- Colour bit `k` of a strip as a 16-bit value: `k` is 0, 1, 2 for those codes and 3 for code 7 (R57). -/
def colourBit (strip : Strip) (k : Nat) (c : Word16) : Word16 :=
  (BitVec.ofBool (c.getLsbD (colourBitBase strip + k))).setWidth 16

/-- `BG`, bits 11:8 of a colour-select word, as a 16-bit value (R57). -/
def backgroundField (c : Word16) : Word16 := (c.extractLsb' 8 4).setWidth 16

/-- A strip's parameters. -/
def stripParams (cfg : Config) : Strip → StripParams
  | .zero => cfg.strip0
  | .one => cfg.strip1

end Sys2Proof.Machine
end

