-- ==== Sys2Proof/Machine/Memory.lean ====
section
/-! DEFINITION. A register array (one bank of R12, R13) as a sparse list of words in one canonical form, with its read and its write. -/

namespace Sys2Proof.Machine

/-- A bank of 2048 words of 16 bits: (word index, word) pairs, indices rising; a word not listed holds `unlistedWord`. -/
abbrev Memory := List (Nat × Word16)

/-- `RAM_WORDS`, the words of a bank (R6). -/
def bankWords : Nat := 2048

/-- What an unlisted word reads as: 0x0000, the reset contents of both banks (R12, R13, R28; log 24). -/
def unlistedWord : Word16 := 0x0000

/-- The word at index `i`. -/
def Memory.read : Memory → Nat → Word16
  | [], _ => unlistedWord
  | (k, v) :: m, i => if k = i then v else Memory.read m i

/-- The pairs of every index but `i`. -/
def Memory.erase (m : Memory) (i : Nat) : Memory := m.filter fun c => c.1 != i

/-- The pair `(i, v)` put at its place in a list that does not hold `i`. -/
def Memory.place (i : Nat) (v : Word16) : Memory → Memory
  | [] => [(i, v)]
  | c :: m => if i < c.1 then (i, v) :: c :: m else c :: Memory.place i v m

/-- Word `i` set to `v`; writing what an unlisted word reads as removes the pair. -/
def Memory.write (m : Memory) (i : Nat) (v : Word16) : Memory :=
  if v = unlistedWord then Memory.erase m i else Memory.place i v (Memory.erase m i)

/-- The canonical form: indices strictly rising and below 2048, and no pair that says what an unlisted word reads as. -/
def Memory.wf (m : Memory) : Bool :=
  decide ((m.map Prod.fst).Pairwise (· < ·)) && m.all fun c => decide (c.1 < bankWords) && c.2 != unlistedWord

end Sys2Proof.Machine
end

