-- ==== Sys2Proof/Machine/Params.lean ====
section
/-! DEFINITION. The default value of every parameter (R6) and the reset values that are no parameter (R28). -/

namespace Sys2Proof.Machine

/-- Strip 0's defaults: `HS0_BASE` (decision D6), `SEL[0]` and `BGSEL[0]` (decision D9). -/
def defaultStrip0 : StripParams :=
  { hsBase := 0x200, sel0 := 0x00, sel1 := 0x02, sel2 := 0x04, sel7 := 0x06, bgSel := 0x00 }

/-- Strip 1's defaults: `HS1_BASE`, `SEL[1]` and `BGSEL[1]`. -/
def defaultStrip1 : StripParams :=
  { hsBase := 0x400, sel0 := 0x08, sel1 := 0x0A, sel2 := 0x0C, sel7 := 0x0E, bgSel := 0x10 }

/-- The parameters of R6 at their defaults, with the given ROM (which has no default). -/
def defaultConfig (rom : Array Byte) : Config :=
  { rom := rom
    strip0 := defaultStrip0
    strip1 := defaultStrip1
    colBase := 0x600
    directBias1 := 0
    phase := 0x5F8
    prioMode1 := #v[0x80, 0x81, 0x81, 0x87, 0x00, 0x00, 0x00, 0x00]
    prioMode2 := #v[0x81, 0x81, 0x81, 0x8F, 0x00, 0x00, 0x00, 0x80]
    sentinel := 0xFFFF
    off1Reset := 0x0400
    off2Reset := 0x0420
    off3Reset := 0x0780 }

/-- The ROM of `State.reset`: any bytes, at least one (R6, R112). -/
def launchRom : Array Byte := ⟨Config.romFirstByte :: Config.romOtherBytes⟩

/-- Both banks after RESET: every word 0x0000 (R28). -/
def bankReset : Memory := []

/-- `CTRL` after RESET (R28, decision D15). -/
def ctrlReset : Byte := 0x00

/-- `XOFF` after RESET (R28). -/
def xoffReset : Word16 := 0x0000

/-- The response word of an operation whose response carries no information (R64). DESIGN CHOICE (log 3). -/
def noResponse : Word32 := 0

end Sys2Proof.Machine
end

