-- ==== Sys2Proof/Machine/Tables.lean ====
section
/-! DEFINITION. The surface table and the pixel buffer: their types, and the read and write of one place.

The operations that make whole lines or buffers are irreducible, so that comparing two states never unfolds 71680 entries; Laws/Tables.lean says what one entry is. -/

namespace Sys2Proof.Machine

/-- `f k, f (k + 1), …`: `n` entries of a table. -/
def tabulate {α : Type} (f : Nat → α) : Nat → Nat → List α
  | 0, _ => []
  | n + 1, k => f k :: tabulate f n (k + 1)

theorem tabulate_length {α : Type} (f : Nat → α) (n k : Nat) : (tabulate f n k).length = n := by
  induction n generalizing k with
  | zero => rfl
  | succ n ih => simp [tabulate, ih]

/-- The table of `n` entries whose entry `i` is `f i`. -/
def tableOf {α : Type} (n : Nat) (f : Nat → α) : Vector α n := ⟨⟨tabulate f n 0⟩, tabulate_length f n 0⟩

/-- `SURF`: 513 rows of 512 codes (R10). -/
abbrev SurfaceTable := Vector (Vector Code 512) 513

/-- The code at `(row, col)` (R40). RFG forms no index outside 513 x 512; were there one, it would "degrade to the synthetic off-road code" (DEDUCED, log 31). -/
def surfAt (t : SurfaceTable) (row col : Nat) : Code :=
  (t.toList[row]?.bind fun r => r.toList[col]?).getD 3

/-- One scanline of the pixel buffer: 320 entries; `none` is an entry without a value (R21, R111). -/
abbrev Line := Vector (Option Word16) 320

/-- `PIX`: 224 scanlines (R21, R41). -/
abbrev PixelBuffer := Vector Line 224

/-- `PIX[y][x]`: its value, or `none` where it has none (or where there is no such place). -/
def pixAt (p : PixelBuffer) (y x : Nat) : Option Word16 :=
  (p.toList[y]?.bind fun l => l.toList[x]?).join

/-- The buffer in which no entry has a value. -/
@[irreducible] def unwrittenBuffer : PixelBuffer := Vector.replicate 224 (Vector.replicate 320 none)

/-- The lines of a render pass from line `y` on: `line y` where the pass writes the line, the old one otherwise. -/
def paintLines (line : Nat → Option Line) : Nat → List Line → List Line
  | _, [] => []
  | y, old :: rest => (line y).getD old :: paintLines line (y + 1) rest

theorem paintLines_length (line : Nat → Option Line) (y : Nat) (old : List Line) :
    (paintLines line y old).length = old.length := by
  induction old generalizing y with
  | nil => rfl
  | cons l rest ih => simp [paintLines, ih]

/-- A render pass: line `y` becomes `line y` where the pass writes it and stays as it was otherwise; a pass writes all 320 entries of a line or none (R41). -/
@[irreducible] def paint (p : PixelBuffer) (line : Nat → Option Line) : PixelBuffer :=
  ⟨⟨paintLines line 0 p.toList⟩, by simp [paintLines_length]⟩

/-- A line of one colour. -/
@[irreducible] def flatLine (v : Word16) : Line := Vector.replicate 320 (some v)

end Sys2Proof.Machine
end

