-- ==== Sys2Proof/Machine/RomDecoder.lean ====
section
/-! DEFINITION. The ROM Decoder: the pure function RESET applies to the road ROM (R65 to R72). -/

namespace Sys2Proof.Machine

/-- `MemRead(addr, 1)`: the ROM byte at `addr mod ROM_LEN` (R38). -/
def romByte (rom : Array Byte) (addr : Nat) : Byte := rom.getD (addr % rom.size) 0

/-- The source offset of logical row `y`, reduced modulo the ROM's length (R66). -/
def rowSource (romLen y : Nat) : Nat := (y % 256 * 64 + y / 256 * 32768) % romLen

/-- Bit `7 - x mod 8` of the ROM byte at `addr`: bit 7 of a byte is its leftmost column (R36(c), R67). -/
def planeBit (rom : Array Byte) (addr x : Nat) : Bool := (romByte rom addr).getLsbD (7 - x % 8)

/-- The code the two planes give at `(y, x)`, before stripe marking: `bitA | (bitB << 1)` (R67). -/
def planeCode (rom : Array Byte) (y x : Nat) : Code :=
  let src := rowSource rom.size y
  let a := planeBit rom (src + x / 8) x
  let b := planeBit rom (src + x / 8 + 0x4000) x
  (BitVec.ofBool a).setWidth 3 ||| ((BitVec.ofBool b).setWidth 3 <<< 1)

/-- Stripe marking: code 3 in columns 248 to 255 becomes 7 (R68). -/
def markStripe (x : Nat) (code : Code) : Code :=
  if 248 ≤ x ∧ x < 256 ∧ code = 3 then 7 else code

/-- The entry of `SURF` at `(row, x)`: rows 0 to 511 from the ROM, row 512 the synthetic off-road row (R65, R69). -/
def decodedCode (rom : Array Byte) (row x : Nat) : Code :=
  if row < 512 then markStripe x (planeCode rom row x) else 3

/-- `decode(ROM, ROM_LEN)`: the whole surface table (R65). Irreducible, so that comparing two states never unfolds 262656 entries; `surfAt_decodeRom` says what one entry is. -/
@[irreducible] def decodeRom (rom : Array Byte) : SurfaceTable :=
  tableOf 513 fun row => tableOf 512 fun x => decodedCode rom row x

end Sys2Proof.Machine
end

