-- ==== Sys2Proof/Machine/State.lean ====
section
/-! DEFINITION. The state of the block as plain data, the reasons a step may stop, and the state right after RESET. -/

namespace Sys2Proof.Machine

/-- Everything the spec gives the block between two operations, with the parameters of the run and the operations issued to it. -/
structure State where
  /-- The parameters of R6; no operation writes them. DESIGN CHOICE (log 5): they are held beside the state. -/
  cfg : Config
  /-- `SURF`, the decoded surface table (R10). -/
  surf : SurfaceTable
  /-- `RAM_W`, the bank the host writes (R12). -/
  ramW : Memory
  /-- `RAM_L`, the bank the compositors read (R13). -/
  ramL : Memory
  /-- `CTRL`, the control byte (R16). -/
  ctrl : Byte
  /-- `OFF1`, the road-surface palette offset (R17). -/
  off1 : Word16
  /-- `OFF2`, the background-fallback palette offset (R17). -/
  off2 : Word16
  /-- `OFF3`, the solid-sky palette offset (R17). -/
  off3 : Word16
  /-- `XOFF`, the horizontal shift (R19). -/
  xoff : Word16
  /-- `PIX`, the caller's pixel buffer (R21; log 19). -/
  pix : PixelBuffer
  /-- The response word of the last operation performed (R50, R64). DESIGN CHOICE (log 3): 0 where it carries no information. -/
  resp : Word32
  /-- The transactions the host has issued and the block has not yet performed, oldest first (R7). DESIGN CHOICE (log 1). -/
  pending : List Transaction
  /-- Whether a RESET has been performed: the launch premise (R111). DESIGN CHOICE (log 4): a Bool of the state records it. -/
  launched : Bool
deriving DecidableEq, Repr

/-- The block raises no exception and no operation faults (R100): there is no reason to fault. -/
inductive Fault where
deriving DecidableEq, Repr

/-- Why the model gives an operation no meaning. None is an event of the hardware (R101). -/
inductive Refusal where
  /-- Raised by `exec` for an operation without a meaning in this model. Safe: the run stops. -/
  | notModelled (mnemonic : String)
  /-- Raised by `step` for operation codes 0x0C to 0xFF, which have no meaning (R56). Safe: the run stops. -/
  | reservedOperation (op : Byte)
  /-- Raised by every operation but RESET while no RESET has been performed and no state has a value (R111). Safe: the run stops. -/
  | beforeFirstReset
  /-- Raised by RESET with `ROM_LEN = 0`, where the reduction modulo the ROM's length has no value (R112). Safe: the run stops. -/
  | emptyRom
deriving DecidableEq, Repr

/-- The block right after a first RESET (R28), with the default parameters, a ROM about which nothing is known but that it has a byte, a pixel buffer in which no entry has a value, and no operation issued. Its `CTRL` and offsets are PRESUMED (logs 16, 17), its ROM, parameters, buffer and empty list of issued words DESIGN CHOICE (logs 1, 5, 6, 19). -/
def State.reset : State :=
  { cfg := defaultConfig launchRom
    surf := decodeRom launchRom
    ramW := bankReset
    ramL := bankReset
    ctrl := ctrlReset
    off1 := (defaultConfig launchRom).off1Reset
    off2 := (defaultConfig launchRom).off2Reset
    off3 := (defaultConfig launchRom).off3Reset
    xoff := xoffReset
    pix := unwrittenBuffer
    resp := noResponse
    pending := []
    launched := true }

end Sys2Proof.Machine
end

