-- ==== Sys2Proof/Machine/Ops.lean ====
section
/-! DEFINITION. The named operations over the state that the meanings share.

There is no operation that takes an exception and none that returns from one: the block raises no exception, saves no state, has no handler address and no trap return (R100, R104, R105). -/

namespace Sys2Proof.Machine

/-- The state with response word `r` (R64). -/
def answer (s : State) (r : Word32) : State := { s with resp := r }

/-- `MemWrite(addr, 2, v)`: one word of the writable bank (R8, R31). -/
def hostWrite16 (s : State) (addr : Word32) (v : Word16) : State :=
  { s with ramW := s.ramW.write (windowIndex addr) v }

/-- `MemWrite(addr, 4, v)`: the high half at `addr`, then the low half two bytes higher (R8, R36(b)). -/
def hostWrite32 (s : State) (addr v : Word32) : State :=
  hostWrite16 (hostWrite16 s addr (highHalf v)) (addr + 2) (lowHalf v)

/-- The exchange of the contents of the two banks (R14, R76). -/
def exchangeBanks (s : State) : State := { s with ramW := s.ramL, ramL := s.ramW }

/-- The state with another pixel buffer. -/
def setPix (s : State) (p : PixelBuffer) : State := { s with pix := p }

/-- `CTRL <- byte` (R78). -/
def setCtrl (s : State) (byte : Byte) : State := { s with ctrl := byte }

/-- `OFF1 <- value` (R79). -/
def setOff1 (s : State) (value : Word16) : State := { s with off1 := value }

/-- `OFF2 <- value` (R80). -/
def setOff2 (s : State) (value : Word16) : State := { s with off2 := value }

/-- `OFF3 <- value` (R81). -/
def setOff3 (s : State) (value : Word16) : State := { s with off3 := value }

/-- `XOFF <- value` (R82). -/
def setXoff (s : State) (value : Word16) : State := { s with xoff := value }

/-- Word `i` of the latched bank. All addressing wraps (R100): an index past the bank, which only parameters other than the defaults can form, is reduced modulo 2048. DESIGN CHOICE (log 25). -/
def latchedWord (s : State) (i : Nat) : Word16 := s.ramL.read (i % bankWords)

/-- `CTRL0_BASE` or `CTRL1_BASE` (R34). -/
def ctrlBase : Strip → Nat
  | .zero => 0x000
  | .one => 0x100

/-- `d0` or `d1`: the control word of a strip on line `y` (R34, R85). -/
def ctrlWord (s : State) (strip : Strip) (y : Nat) : Word16 := latchedWord s (ctrlBase strip + y)

/-- The outcome of an operation other than RESET: its next state, or a refusal while no RESET has been performed (R111). -/
def whenLaunched (s t : State) : Host.Outcome State Fault Refusal :=
  if s.launched then .next t else .refused .beforeFirstReset

end Sys2Proof.Machine
end

