-- ==== Sys2Proof/Machine/Background.lean ====
section
/-! DEFINITION. The Background Compositor and the meaning of RBG (R85 to R89). -/

namespace Sys2Proof.Machine

/-- The sky colour index a control word offers: bits 6:0 of a solid one (R86). -/
def skyOf (d : Word16) : Option (BitVec 7) := if solid d then some (skyField d) else none

/-- The selection function (R86): a 7-bit colour, or none. In modes 1 and 2 the preferred strip is tested first. -/
def skySelect (mode : Mode) (d0 d1 : Word16) : Option (BitVec 7) :=
  match mode with
  | .strip0Only => skyOf d0
  | .preferStrip0 => (skyOf d0).or (skyOf d1)
  | .preferStrip1 => (skyOf d1).or (skyOf d0)
  | .strip1Only => skyOf d1

/-- The palette index of a solid line: `color | OFF3` (R87). -/
def skyColour (off3 : Word16) (c : BitVec 7) : Word16 := c.setWidth 16 ||| off3

/-- Line `y` as RBG writes it, or none where RBG leaves it untouched (R85). -/
def backgroundLine (s : State) (y : Nat) : Option Line :=
  (skySelect (modeOf s.ctrl) (ctrlWord s .zero y) (ctrlWord s .one y)).map fun c => flatLine (skyColour s.off3 c)

/-- RBG (R85). -/
def execRbg (s : State) : Host.Outcome State Fault Refusal :=
  whenLaunched s (answer (setPix s (paint s.pix (backgroundLine s))) noResponse)

end Sys2Proof.Machine
end

