-- ==== Sys2Proof/Machine/Foreground.lean ====
section
/-! DEFINITION. The Foreground Compositor and the meaning of RFG (R90 to R99). -/

namespace Sys2Proof.Machine

/-- A strip's colour table on one line: the five entries that exist (R23, R93). -/
structure ColourTable where
  /-- Entry 0. -/
  c0 : Word16
  /-- Entry 1. -/
  c1 : Word16
  /-- Entry 2. -/
  c2 : Word16
  /-- Entry 3: edge highlight or background fallback. -/
  c3 : Word16
  /-- Entry 7: stripe. -/
  c7 : Word16
deriving DecidableEq, Repr

/-- The entry of a code. Codes 4, 5 and 6 never occur (R11) and their entries have no value (R23): a free value (log 26). -/
def colourEntry (ct : ColourTable) (code : Code) : Word16 :=
  match code.toNat with
  | 0 => ct.c0
  | 1 => ct.c1
  | 2 => ct.c2
  | 3 => ct.c3
  | 7 => ct.c7
  | _ => Config.missingColour code

/-- The first row of a strip's ROM bank: 0 or 256 (R91). -/
def bankRow : Strip → Nat
  | .zero => 0
  | .one => 256

/-- Step 2(a): the surface row of a strip, the synthetic row 512 if it is solid (R91). -/
def surfaceRow (strip : Strip) (d : Word16) : Nat :=
  if solid d then 512 else bankRow strip + rowField d

/-- The index of a strip's tables in direct mode: `y`, for strip 1 biased by `DIRECT_BIAS1` (R35, decision D7). -/
def directIndex (cfg : Config) (strip : Strip) (y : Nat) : Nat :=
  match strip with
  | .zero => y
  | .one => cfg.directBias1 + y

/-- `idx0` or `idx1`: the table index of a strip on line `y` (R35). -/
def tableIndex (s : State) (strip : Strip) (y : Nat) : Nat :=
  if direct s.ctrl then directIndex s.cfg strip y else indexField (ctrlWord s strip y)

/-- `hraw0` or `hraw1` (R92). -/
def rawPosition (s : State) (strip : Strip) (y : Nat) : Column :=
  positionField (latchedWord s ((stripParams s.cfg strip).hsBase + tableIndex s strip y))

/-- `c0` or `c1`, the colour-select word (R92). -/
def colourSelect (s : State) (strip : Strip) (y : Nat) : Word16 :=
  latchedWord s (s.cfg.colBase + tableIndex s strip y)

/-- Entries 0, 1, 2 and 7: `OFF1 ^ SEL[s][k] ^ colourbit` (R93). -/
def roadColour (off1 sel bit : Word16) : Word16 := off1 ^^^ sel ^^^ bit

/-- Step 3: the colour table of a strip on line `y` (R93, decisions D8, D9, D10). -/
def colourTable (s : State) (strip : Strip) (y : Nat) : ColourTable :=
  let p := stripParams s.cfg strip
  let c := colourSelect s strip y
  let entry0 := roadColour s.off1 p.sel0 (colourBit strip 0 c)
  { c0 := entry0
    c1 := roadColour s.off1 p.sel1 (colourBit strip 1 c)
    c2 := roadColour s.off1 p.sel2 (colourBit strip 2 c)
    c3 := if stripeVisible (ctrlWord s strip y) then entry0 else s.off2 ^^^ p.bgSel ^^^ backgroundField c
    c7 := roadColour s.off1 p.sel7 (colourBit strip 3 c) }

/-- Phase adjustment: `(hraw - (PHASE + XOFF)) mod 4096` over the integers (R94, decision D11). -/
def startCursor (s : State) (strip : Strip) (y : Nat) : Column :=
  BitVec.ofInt 12 (((rawPosition s strip y).toNat : Int) - ((s.cfg.phase : Int) + (s.xoff.toNat : Int)))

/-- `p0` or `p1`: the code at a cursor, 3 outside columns 0 to 511 (R95). -/
def codeAt (surf : SurfaceTable) (row : Nat) (h : Column) : Code :=
  if h.toNat < 512 then surfAt surf row h.toNat else 3

/-- The priority test: bit `p1` of the row's entry for `p0` (R97). -/
def strip1Wins (prio : Vector Byte 8) (p0 p1 : Code) : Bool :=
  (prio[p0.toNat]'p0.isLt).getLsbD p1.toNat

/-- Step 4: the colour of a pixel from the two codes (R96, R97). -/
def pixelColour (cfg : Config) (mode : Mode) (ct0 ct1 : ColourTable) (p0 p1 : Code) : Word16 :=
  match mode with
  | .strip0Only => colourEntry ct0 p0
  | .preferStrip0 => if strip1Wins cfg.prioMode1 p0 p1 then colourEntry ct1 p1 else colourEntry ct0 p0
  | .preferStrip1 => if strip1Wins cfg.prioMode2 p0 p1 then colourEntry ct1 p1 else colourEntry ct0 p0
  | .strip1Only => colourEntry ct1 p1

/-- Step 5: `n` entries from the given cursors, both cursors stepping by one modulo 4096 after every pixel (R98). -/
def rasterEntries (pixel : Column → Column → Word16) : Nat → Column → Column → List (Option Word16)
  | 0, _, _ => []
  | n + 1, h0, h1 => some (pixel h0 h1) :: rasterEntries pixel n (h0 + 1) (h1 + 1)

theorem rasterEntries_length (pixel : Column → Column → Word16) (n : Nat) (h0 h1 : Column) :
    (rasterEntries pixel n h0 h1).length = n := by
  induction n generalizing h0 h1 with
  | zero => rfl
  | succ n ih => simp [rasterEntries, ih]

/-- The 320 entries of a line (R90). -/
@[irreducible] def rasterLine (pixel : Column → Column → Word16) (h0 h1 : Column) : Line :=
  ⟨⟨rasterEntries pixel 320 h0 h1⟩, rasterEntries_length pixel 320 h0 h1⟩

/-- Line `y` as RFG writes it, or none where RFG skips it (R90). -/
def foregroundLine (s : State) (y : Nat) : Option Line :=
  let d0 := ctrlWord s .zero y
  let d1 := ctrlWord s .one y
  let mode := modeOf s.ctrl
  if foregroundSkips mode d0 d1 then none
  else
    let row0 := surfaceRow .zero d0
    let row1 := surfaceRow .one d1
    let ct0 := colourTable s .zero y
    let ct1 := colourTable s .one y
    let pixel := fun h0 h1 => pixelColour s.cfg mode ct0 ct1 (codeAt s.surf row0 h0) (codeAt s.surf row1 h1)
    some (rasterLine pixel (startCursor s .zero y) (startCursor s .one y))

/-- RFG (R90). -/
def execRfg (s : State) : Host.Outcome State Fault Refusal :=
  whenLaunched s (answer (setPix s (paint s.pix (foregroundLine s))) noResponse)

end Sys2Proof.Machine
end

