-- ==== Sys2Proof/Machine/Reset.lean ====
section
/-! DEFINITION. The meaning of RESET (R110 to R113). -/

namespace Sys2Proof.Machine

/-- Every piece of state of the block but the pixel buffer at its reset value (R28, R110). -/
def resetState (s : State) : State :=
  { s with
    surf := decodeRom s.cfg.rom
    ramW := bankReset
    ramL := bankReset
    ctrl := ctrlReset
    off1 := s.cfg.off1Reset
    off2 := s.cfg.off2Reset
    off3 := s.cfg.off3Reset
    xoff := xoffReset
    resp := noResponse
    launched := true }

/-- RESET (R110): refused with an empty ROM (R112), allowed at any time (R113). -/
def execReset (s : State) : Host.Outcome State Fault Refusal :=
  if s.cfg.rom.toList.isEmpty then .refused .emptyRom else .next (resetState s)

end Sys2Proof.Machine
end

