-- ==== Sys2Proof/Machine/Store.lean ====
section
/-! DEFINITION. The meanings of the Register and Buffer Store: WR16, WR16A, WR32A, RDCTL, WRCTL and the four setters (R73 to R84). -/

namespace Sys2Proof.Machine

/-- WR16 (R73). -/
def execWr16 (addr : Word32) (value : Word16) (s : State) : Host.Outcome State Fault Refusal :=
  whenLaunched s (answer (hostWrite16 s addr value) noResponse)

/-- WR16A: as WR16, and the response is the cursor advanced by 2 (R74). -/
def execWr16a (addr : Word32) (value : Word16) (s : State) : Host.Outcome State Fault Refusal :=
  whenLaunched s (answer (hostWrite16 s addr value) (advance addr 2))

/-- WR32A: two words, high half first, and the response is the cursor advanced by 4 (R75). -/
def execWr32a (addr value : Word32) (s : State) : Host.Outcome State Fault Refusal :=
  whenLaunched s (answer (hostWrite32 s addr value) (advance addr 4))

/-- RDCTL: the swap, and the response is `SENTINEL` (R76). -/
def execRdctl (s : State) : Host.Outcome State Fault Refusal :=
  whenLaunched s (answer (exchangeBanks s) (s.cfg.sentinel.setWidth 32))

/-- WRCTL: `CTRL <- byte`, all eight bits stored (R78, decision D15). -/
def execWrctl (byte : Byte) (s : State) : Host.Outcome State Fault Refusal :=
  whenLaunched s (answer (setCtrl s byte) noResponse)

/-- SETOFF1 (R79). -/
def execSetoff1 (value : Word16) (s : State) : Host.Outcome State Fault Refusal :=
  whenLaunched s (answer (setOff1 s value) noResponse)

/-- SETOFF2 (R80). -/
def execSetoff2 (value : Word16) (s : State) : Host.Outcome State Fault Refusal :=
  whenLaunched s (answer (setOff2 s value) noResponse)

/-- SETOFF3 (R81). -/
def execSetoff3 (value : Word16) (s : State) : Host.Outcome State Fault Refusal :=
  whenLaunched s (answer (setOff3 s value) noResponse)

/-- SETXOFF: all 16 bits stored, of which RFG uses bits 11:0 (R19, R82). -/
def execSetxoff (value : Word16) (s : State) : Host.Outcome State Fault Refusal :=
  whenLaunched s (answer (setXoff s value) noResponse)

end Sys2Proof.Machine
end

