-- ==== Sys2Proof/Syntax.lean ====
section
/-! DEFINITION. The twelve operations of the block (R52), one constructor per row of spec/opcode_table.json, with the operands of R51. -/

namespace Sys2Proof

/-- A host operation with its assembled operands (R51, R52). -/
inductive Instr where
  /-- RESET, op 0x00 (R110). -/
  | reset
  /-- WR16, op 0x01 (R73). -/
  | wr16 (addr : Word32) (value : Word16)
  /-- WR16A, op 0x02; `addr` is the caller's cursor (R74). -/
  | wr16a (addr : Word32) (value : Word16)
  /-- WR32A, op 0x03; `addr` is the caller's cursor (R75). -/
  | wr32a (addr : Word32) (value : Word32)
  /-- RDCTL, op 0x04 (R76). -/
  | rdctl
  /-- WRCTL, op 0x05 (R78). -/
  | wrctl (byte : Byte)
  /-- RBG, op 0x06 (R85). -/
  | rbg
  /-- RFG, op 0x07 (R90). -/
  | rfg
  /-- SETOFF1, op 0x08 (R79). -/
  | setoff1 (value : Word16)
  /-- SETOFF2, op 0x09 (R80). -/
  | setoff2 (value : Word16)
  /-- SETOFF3, op 0x0A (R81). -/
  | setoff3 (value : Word16)
  /-- SETXOFF, op 0x0B (R82). -/
  | setxoff (value : Word16)
deriving DecidableEq, Repr

end Sys2Proof
end

