-- ==== Sys2Proof/Machine/Dispatch.lean ====
section
/-! DEFINITION. Every operation's arm: one direct call of its meaning. -/

namespace Sys2Proof.Machine

def exec (i : Instr) (s : State) : Host.Outcome State Fault Refusal :=
  match i with
  | .reset => Sys2Proof.Machine.execReset s
  | .wr16 addr value => Sys2Proof.Machine.execWr16 addr value s
  | .wr16a addr value => Sys2Proof.Machine.execWr16a addr value s
  | .wr32a addr value => Sys2Proof.Machine.execWr32a addr value s
  | .rdctl => Sys2Proof.Machine.execRdctl s
  | .wrctl byte => Sys2Proof.Machine.execWrctl byte s
  | .rbg => Sys2Proof.Machine.execRbg s
  | .rfg => Sys2Proof.Machine.execRfg s
  | .setoff1 value => Sys2Proof.Machine.execSetoff1 value s
  | .setoff2 value => Sys2Proof.Machine.execSetoff2 value s
  | .setoff3 value => Sys2Proof.Machine.execSetoff3 value s
  | .setxoff value => Sys2Proof.Machine.execSetxoff value s

end Sys2Proof.Machine
end

