-- ==== Sys2Proof/WellFormed.lean ====
section
/-! DEFINITION. What is checked of a transaction word before it counts as one an encoder would write: a defined operation code (R52, R56) and zero in every ignored bit (R51).

An `Instr` needs no check of its own: its operands have exactly the widths of R51, every value of every operand is legal, and no combination of operands is illegal (R62). -/

namespace Sys2Proof

/-- The bits of a transaction word that an operation code's operands use (R51, the field column of spec/opcode_table.json), the operation code among them; none for a reserved code. -/
def usedMask (op : Byte) : Option Transaction :=
  match op.toNat with
  | 0 => some 0xFF0000000000000000#72
  | 1 => some 0xFFFFFFFFFF0000FFFF#72
  | 2 => some 0xFFFFFFFFFF0000FFFF#72
  | 3 => some 0xFFFFFFFFFFFFFFFFFF#72
  | 4 => some 0xFF0000000000000000#72
  | 5 => some 0xFF00000000000000FF#72
  | 6 => some 0xFF0000000000000000#72
  | 7 => some 0xFF0000000000000000#72
  | 8 => some 0xFF000000000000FFFF#72
  | 9 => some 0xFF000000000000FFFF#72
  | 10 => some 0xFF000000000000FFFF#72
  | 11 => some 0xFF000000000000FFFF#72
  | _ => none

/-- Check 1: the operation code is one of the twelve of R52, not a reserved one. -/
def definedOperation (t : Transaction) : Bool :=
  (usedMask (t.extractLsb' 64 8)).isSome

/-- Check 2: every bit the operation ignores is 0, as an encoder should write it (R51). -/
def ignoredBitsZero (t : Transaction) : Bool :=
  match usedMask (t.extractLsb' 64 8) with
  | some m => t &&& ~~~m == 0#72
  | none => false

/-- A transaction word an encoder may write: both checks pass. -/
def wordWellFormed (t : Transaction) : Bool :=
  definedOperation t && ignoredBitsZero t

end Sys2Proof
end

