-- ==== Sys2Proof/Decode.lean ====
section
/-! DEFINITION. The decoder of transaction words, total and rejecting by name (R50, R51, R52, R56), and the encoder. -/

namespace Sys2Proof

/-- Why a transaction word has no operation. -/
inductive DecodeError where
  /-- The operation code is 0x0C to 0xFF (R56). -/
  | reservedOperation (op : Byte)
deriving DecidableEq, Repr

/-- `op = T[71:64]` (R50). -/
def opField (t : Transaction) : Byte := t.extractLsb' 64 8

/-- `addr = T[63:32]` (R50). -/
def addrField (t : Transaction) : Word32 := t.extractLsb' 32 32

/-- `data = T[31:0]` (R50). -/
def dataField (t : Transaction) : Word32 := t.extractLsb' 0 32

/-- The 16-bit value operand, `data[15:0]`; the bits above are ignored (R51). -/
def valueField (t : Transaction) : Word16 := (dataField t).extractLsb' 0 16

/-- The byte operand of WRCTL, `data[7:0]`; the bits above are ignored (R51). -/
def byteField (t : Transaction) : Byte := (dataField t).extractLsb' 0 8

/-- The operation a transaction word stands for, by the operation map of R52 and the operand slices of R51. -/
def decode (t : Transaction) : Except DecodeError Instr :=
  match (opField t).toNat with
  | 0 => .ok .reset
  | 1 => .ok (.wr16 (addrField t) (valueField t))
  | 2 => .ok (.wr16a (addrField t) (valueField t))
  | 3 => .ok (.wr32a (addrField t) (dataField t))
  | 4 => .ok .rdctl
  | 5 => .ok (.wrctl (byteField t))
  | 6 => .ok .rbg
  | 7 => .ok .rfg
  | 8 => .ok (.setoff1 (valueField t))
  | 9 => .ok (.setoff2 (valueField t))
  | 10 => .ok (.setoff3 (valueField t))
  | 11 => .ok (.setxoff (valueField t))
  | _ => .error (.reservedOperation (opField t))

/-- The three fields of R50 as one word. -/
def packTransaction (op : Byte) (addr data : Word32) : Transaction := op ++ addr ++ data

/-- The transaction word of an operation, 0 in every ignored bit (R51, R52). -/
def encode (i : Instr) : Transaction :=
  match i with
  | .reset => packTransaction 0x00 0 0
  | .wr16 addr value => packTransaction 0x01 addr (value.setWidth 32)
  | .wr16a addr value => packTransaction 0x02 addr (value.setWidth 32)
  | .wr32a addr value => packTransaction 0x03 addr value
  | .rdctl => packTransaction 0x04 0 0
  | .wrctl byte => packTransaction 0x05 0 (byte.setWidth 32)
  | .rbg => packTransaction 0x06 0 0
  | .rfg => packTransaction 0x07 0 0
  | .setoff1 value => packTransaction 0x08 0 (value.setWidth 32)
  | .setoff2 value => packTransaction 0x09 0 (value.setWidth 32)
  | .setoff3 value => packTransaction 0x0A 0 (value.setWidth 32)
  | .setxoff value => packTransaction 0x0B 0 (value.setWidth 32)

/-- The transaction word whose low `nbits` bits are those of `w`, all others 0: the block has one word length, 72 bits (R50), so a table word is its transaction word. -/
def tableTransaction (nbits w : Nat) : Transaction := BitVec.ofNat 72 (w % 2 ^ nbits)

/-- The operation the decoder reads from a word of spec/opcode_table.json, none where it refuses. -/
def decodeTableWord (nbits w : Nat) : Option Instr :=
  match decode (tableTransaction nbits w) with
  | .ok i => some i
  | .error _ => none

end Sys2Proof
end

