-- ==== Sys2Proof/Machine/Fetch.lean ====
section
/-! DEFINITION. How the next operation reaches the block: the host's issue order (R7). There is no program counter and no instruction fetch (R25). -/

namespace Sys2Proof.Machine

/-- The oldest transaction issued and not yet performed, and the state without it; none when the host has issued nothing. -/
def takeIssued (s : State) : Option (Transaction × State) :=
  match s.pending with
  | [] => none
  | t :: rest => some (t, { s with pending := rest })

/-- The state in which `t` is the next transaction to be performed. -/
def issueNext (s : State) (t : Transaction) : State := { s with pending := t :: s.pending }

/-- The refusal of a word the decoder rejects (R56). -/
def decodeRefusal : DecodeError → Refusal
  | .reservedOperation op => .reservedOperation op

end Sys2Proof.Machine
end

