-- ==== Sys2Proof/Machine/Step.lean ====
section
/-! DEFINITION. One step of the machine: the oldest operation the host has issued, performed from start to end (R7). -/

namespace Sys2Proof.Machine

/-- One step: perform the oldest issued operation. With no operation issued, no state changes (R7, R109; DEDUCED, log 2); a reserved word is refused (R56). -/
def step (s : State) : Host.Outcome State Fault Refusal :=
  match takeIssued s with
  | none => .next s
  | some (t, s') =>
    match decode t with
    | .ok i => exec i s'
    | .error e => .refused (decodeRefusal e)

/-- `s` with the given word issued, to be performed by the very next step. -/
def State.withFetchWord (s : State) (nbits w : Nat) : State := issueNext s (tableTransaction nbits w)

end Sys2Proof.Machine
end

