-- ==== Sys2Proof/Safety.lean ====
section
/-! DEFINITION. The terms the statements about the machine use: sequences of operations, the legal surface table, the invariant, and what a strip shows. -/

namespace Sys2Proof.Machine

/-- A sequence of operations performed in the host's issue order, stopping at the first that has no meaning (R7, R44). -/
def runOps : List Instr → State → Host.Outcome State Fault Refusal
  | [], s => .next s
  | i :: is, s =>
    match exec i s with
    | .next t => runOps is t
    | .fault r => .fault r
    | .refused r => .refused r

/-- A host that writes words one after another with WR16A, taking each next cursor from the response (R74). -/
def streamWords : Word32 → List Word16 → State → Host.Outcome State Fault Refusal
  | _, [], s => .next s
  | cursor, v :: vs, s =>
    match exec (.wr16a cursor v) s with
    | .next t => streamWords t.resp vs t
    | .fault r => .fault r
    | .refused r => .refused r

/-- The value of the last of the given (address, value) writes that went to word `i`, if one did. -/
def lastWrite (writes : List (Word32 × Word16)) (i : Nat) : Option Word16 :=
  writes.foldl (fun last w => if windowIndex w.1 = i then some w.2 else last) none

/-- The operations by which the host writes words of `RAM_W` through its window: WR16, WR16A and WR32A (R73 to R75). -/
def writesWindow (i : Instr) : Bool :=
  match i with
  | .wr16 _ _ => true
  | .wr16a _ _ => true
  | .wr32a _ _ => true
  | .reset => false
  | .rdctl => false
  | .wrctl _ => false
  | .rbg => false
  | .rfg => false
  | .setoff1 _ => false
  | .setoff2 _ => false
  | .setoff3 _ => false
  | .setxoff _ => false

/-- Word `i` of the two banks exchanged: one iteration of the loop of R76. -/
def exchangeSlot (s : State) (i : Nat) : State :=
  { s with ramW := s.ramW.write i (s.ramL.read i), ramL := s.ramL.write i (s.ramW.read i) }

/-- The codes that occur (R11, R59). -/
def legalCode (c : Code) : Prop := c = 0 ∨ c = 1 ∨ c = 2 ∨ c = 3 ∨ c = 7

/-- What R11, R68 and R69 say of every surface table a RESET makes. -/
structure SurfLegal (t : SurfaceTable) : Prop where
  /-- Every entry is one of 0, 1, 2, 3, 7. -/
  codes : ∀ row col, legalCode (surfAt t row col)
  /-- Code 7 stands in the stripe zone of rows 0 to 511 only. -/
  stripe : ∀ row col, surfAt t row col = 7 → row < 512 ∧ 248 ≤ col ∧ col < 256
  /-- No code 3 stands in the stripe zone of rows 0 to 511. -/
  zone : ∀ row col, row < 512 → 248 ≤ col → col < 256 → surfAt t row col ≠ 3
  /-- Row 512 holds only 3. -/
  offRoad : ∀ col, surfAt t 512 col = 3

/-- The invariant every step keeps: both banks in canonical form and, once a RESET has been performed, a legal surface table. -/
structure Inv (s : State) : Prop where
  writable : s.ramW.wf = true
  latched : s.ramL.wf = true
  surface : s.launched = true → SurfLegal s.surf

/-- A run premise the host keeps: a RESET has been performed and the ROM has a byte (R111, R112). -/
def Ready (s : State) : Prop := s.launched = true ∧ s.cfg.rom.size ≠ 0

/-- The mode that shows one strip only (R53). -/
def onlyMode : Strip → Mode
  | .zero => .strip0Only
  | .one => .strip1Only

/-- Two states give a strip the same data and tables on line `y`: its control word, its position, its own colour bits, the background colour, and the surface rows of its bank with the synthetic row (R96). -/
structure SameStripInputs (strip : Strip) (y : Nat) (s s' : State) : Prop where
  control : ctrlWord s strip y = ctrlWord s' strip y
  position : rawPosition s strip y = rawPosition s' strip y
  colours : ∀ k, k < 4 → colourBit strip k (colourSelect s strip y) = colourBit strip k (colourSelect s' strip y)
  background : backgroundField (colourSelect s strip y) = backgroundField (colourSelect s' strip y)
  rows : ∀ row col, (bankRow strip ≤ row ∧ row < bankRow strip + 256) ∨ row = 512 →
    surfAt s.surf row col = surfAt s'.surf row col

/-- RFG draws line `y` of this state. -/
def drawn (s : State) (y : Nat) : Bool := !foregroundSkips (modeOf s.ctrl) (ctrlWord s .zero y) (ctrlWord s .one y)

/-- The code a strip shows at pixel `x` of line `y`: its cursor starts at the line's phase-adjusted position and has stepped `x` times (R91, R94, R95, R98). -/
def shownCode (s : State) (strip : Strip) (y x : Nat) : Code :=
  codeAt s.surf (surfaceRow strip (ctrlWord s strip y)) (startCursor s strip y + BitVec.ofNat 12 x)

end Sys2Proof.Machine
end

