-- ==== Sys2Proof/Certificates/Slice0/Obligations.lean ====
section
/-! DEFINITION. The statements for the provers, one `def Obligations.<Name> : Prop` each.

In a frame, `{ t with ramW := s.ramW, resp := s.resp } = s` says that `t` differs from `s` in nothing but `ramW` and `resp`. -/

open Sys2Proof Sys2Proof.Machine

/-! ### Transaction words -/

/-- Decode and encode agree: the word of every operation, with every operand at every value, decodes to that operation. The word format and the numbering are the spec's decision D1 (log 20). -/
def Obligations.DecodeOfEncodeIsTheOperation : Prop :=
  ∀ i : Instr, decode (encode i) = .ok i

/-- The other direction: a word that decodes is the operation's own word but for the bits the operation ignores. -/
def Obligations.EncodeOfDecodeClearsOnlyIgnoredBits : Prop :=
  ∀ (t : Transaction) (i : Instr), decode t = .ok i →
    ∃ m, usedMask (opField t) = some m ∧ encode i = t &&& m

/-- The decoder is total: codes 0x00 to 0x0B decode, codes 0x0C to 0xFF are named reserved, and the machine refuses them (R56, decisions D1 and D23, log 20). -/
def Obligations.ReservedCodesAreRefusedAndOthersDecode : Prop :=
  (∀ t : Transaction, (opField t).toNat ≤ 0x0B → ∃ i, decode t = .ok i) ∧
  (∀ t : Transaction, 0x0C ≤ (opField t).toNat → decode t = .error (.reservedOperation (opField t))) ∧
  (∀ (s : State) (t : Transaction) (rest : List Transaction), s.pending = t :: rest → 0x0C ≤ (opField t).toNat →
    step s = .refused (.reservedOperation (opField t)))

/-- Words written out in section 3 of 95_test_vectors.md, and one word with ignored bits set, decode to the operations they stand for. -/
def Obligations.WrittenOutWordsDecode : Prop :=
  decode 0x000000000000000000#72 = .ok .reset ∧
  decode 0x010000040C000006E8#72 = .ok (.wr16 0x040C 0x06E8) ∧
  decode 0x02000010020000BEEF#72 = .ok (.wr16a 0x1002 0xBEEF) ∧
  decode 0x0300000FFE12345678#72 = .ok (.wr32a 0x0FFE 0x12345678) ∧
  decode 0x040000000000000000#72 = .ok .rdctl ∧
  decode 0x050000000000000002#72 = .ok (.wrctl 2) ∧
  decode 0x060000000000000000#72 = .ok .rbg ∧
  decode 0x070000000000000000#72 = .ok .rfg ∧
  decode 0x0100000010ABCD1234#72 = .ok (.wr16 0x10 0x1234)

/-! ### One step -/

/-- A step performs the oldest issued operation, on the state without that issued word. That the operations issued and not yet performed stand in a list is the model's choice (log 1). -/
def Obligations.StepPerformsTheOldestIssuedOperation : Prop :=
  ∀ (s : State) (t : Transaction) (rest : List Transaction) (i : Instr),
    s.pending = t :: rest → decode t = .ok i → step s = exec i { s with pending := rest }

/-- "With no operation issued, no state changes" (R7). -/
def Obligations.NothingIssuedNothingChanges : Prop :=
  ∀ s : State, s.pending = [] → step s = .next s

/-- Issuing the words of a sequence of operations and taking as many steps is performing the operations in that order (R7, R44). -/
def Obligations.StepsRunTheIssuedSequence : Prop :=
  ∀ (is : List Instr) (s : State), s.pending = [] →
    Sys2Proof.core.run is.length { s with pending := is.map encode } = runOps is s

/-- R100: every operation, with any operand values, in any state after a RESET, completes; no operation changes the parameters or undoes the launch premise. -/
def Obligations.EveryOperationCompletes : Prop :=
  ∀ (i : Instr) (s : State), Ready s → ∃ t, exec i s = .next t ∧ Ready t ∧ t.cfg = s.cfg

/-- So does every sequence of operations, the protocol followed or not (R100, R114). -/
def Obligations.EverySequenceCompletes : Prop :=
  ∀ (is : List Instr) (s : State), Ready s → ∃ t, runOps is s = .next t ∧ Ready t ∧ t.cfg = s.cfg

/-- Before the first RESET every other operation is refused (R111; the launch premise is the spec's decision D20, its record in the state is log 4). -/
def Obligations.BeforeTheFirstResetOnlyResetRuns : Prop :=
  ∀ (i : Instr) (s : State), s.launched = false → i ≠ .reset → exec i s = .refused .beforeFirstReset

/-- Which operations may change which piece of state: nothing else ever does. -/
def Obligations.EachPieceChangesOnlyByItsOperations : Prop :=
  ∀ (i : Instr) (s t : State), exec i s = .next t →
    t.cfg = s.cfg ∧ t.pending = s.pending ∧
    (t.surf ≠ s.surf → i = .reset) ∧
    (t.ramL ≠ s.ramL → i = .reset ∨ i = .rdctl) ∧
    (t.ramW ≠ s.ramW → i = .reset ∨ i = .rdctl ∨ (∃ a v, i = .wr16 a v) ∨ (∃ a v, i = .wr16a a v) ∨ ∃ a v, i = .wr32a a v) ∧
    (t.pix ≠ s.pix → i = .rbg ∨ i = .rfg) ∧
    (t.ctrl ≠ s.ctrl → i = .reset ∨ ∃ b, i = .wrctl b) ∧
    (t.off1 ≠ s.off1 → i = .reset ∨ ∃ v, i = .setoff1 v) ∧
    (t.off2 ≠ s.off2 → i = .reset ∨ ∃ v, i = .setoff2 v) ∧
    (t.off3 ≠ s.off3 → i = .reset ∨ ∃ v, i = .setoff3 v) ∧
    (t.xoff ≠ s.xoff → i = .reset ∨ ∃ v, i = .setxoff v)

/-- The invariant is kept by every step, from every state that has it. -/
def Obligations.EveryStepKeepsTheInvariant : Prop :=
  ∀ s t : State, Inv s → step s = .next t → Inv t

/-- The invariant holds right after RESET, whatever the ROM. -/
def Obligations.TheInvariantHoldsAtReset : Prop := Inv State.reset

/-! ### RESET and the ROM Decoder -/

/-- RESET (R110, R28, R113): with a ROM of at least one byte it completes in any state; it decodes the ROM, zeroes both banks and `XOFF`, loads the parameters' offsets and 0 into `CTRL` (decisions D14, D15, log 16, log 17), and leaves `PIX`, the parameters and what is issued as they were. -/
def Obligations.ResetCompletes : Prop :=
  ∀ s : State, s.cfg.rom.size ≠ 0 → ∃ t, exec .reset s = .next t ∧
    (∀ row col, row < 512 → col < 512 → surfAt t.surf row col = decodedCode s.cfg.rom row col) ∧
    (∀ col, col < 512 → surfAt t.surf 512 col = 3) ∧
    (∀ i, t.ramW.read i = 0) ∧ (∀ i, t.ramL.read i = 0) ∧
    t.ctrl = 0x00 ∧ t.off1 = s.cfg.off1Reset ∧ t.off2 = s.cfg.off2Reset ∧ t.off3 = s.cfg.off3Reset ∧ t.xoff = 0 ∧
    t.launched = true ∧ t.pix = s.pix ∧ t.cfg = s.cfg ∧ t.pending = s.pending

/-- RESET with an empty ROM is refused (R112, decision D4, log 22). -/
def Obligations.ResetRefusesAnEmptyRom : Prop :=
  ∀ s : State, s.cfg.rom.size = 0 → exec .reset s = .refused .emptyRom

/-- RESET forgets everything but the parameters, the pixel buffer and what is issued: it has the same effect every time (R113). The two outcomes are equal as a whole, the response word with them; that RESET answers the constant 0, which R64 allows beside no response, is the model's choice (log 3). -/
def Obligations.ResetForgetsEverythingElse : Prop :=
  ∀ s s' : State, s.cfg = s'.cfg → s.pix = s'.pix → s.pending = s'.pending → exec .reset s = exec .reset s'

/-- `State.reset` is what a RESET makes of any state with the default parameters, a buffer without values and nothing issued, and it has the values of R28 (`CTRL` and the offsets by decisions D14 and D15, log 16, log 17). The rest of `State.reset` is the model's choice: response 0 (log 3), launched (log 4), the default parameters (log 5), an opaque ROM with a byte, without which RESET would be refused (log 6), and the unwritten buffer (log 19). -/
def Obligations.TheLaunchStateIsAReset : Prop :=
  (∀ s : State, s.cfg = defaultConfig launchRom → s.pix = unwrittenBuffer → s.pending = [] →
    exec .reset s = .next State.reset) ∧
  (∀ i, State.reset.ramW.read i = 0 ∧ State.reset.ramL.read i = 0) ∧
  State.reset.ctrl = 0x00 ∧ State.reset.off1 = 0x0400 ∧ State.reset.off2 = 0x0420 ∧ State.reset.off3 = 0x0780 ∧
  State.reset.xoff = 0x0000 ∧ (∀ y x, pixAt State.reset.pix y x = none)

/-- R66: the source offset of a row, in the two halves the rule gives. -/
def Obligations.RowSourceOffset : Prop :=
  ∀ romLen y : Nat, y < 512 →
    rowSource romLen y = (if y ≤ 255 then y * 64 else (y - 256) * 64 + 32768) % romLen

/-- R65 and R67: outside the stripe rule, bit 0 of an entry is the plane-A bit and bit 1 the plane-B bit, leftmost column from bit 7; bit 2 is set exactly for two 1 bits in the stripe zone. That the two byte addresses are reduced modulo the ROM's length is the spec's decision D5 (log 7). -/
def Obligations.DecodedBitsComeFromThePlanes : Prop :=
  ∀ (rom : Array Byte) (y x : Nat), y < 512 → x < 512 →
    let src := rowSource rom.size y
    let a := (rom.getD ((src + x / 8) % rom.size) 0).getLsbD (7 - x % 8)
    let b := (rom.getD ((src + x / 8 + 0x4000) % rom.size) 0).getLsbD (7 - x % 8)
    let code := surfAt (decodeRom rom) y x
    code.getLsbD 0 = a ∧ code.getLsbD 1 = b ∧ code.getLsbD 2 = (a && b && decide (248 ≤ x ∧ x < 256))

/-- R68: in columns 248 to 255 of rows 0 to 511 a code of 3 becomes 7, and every other code of those rows is the one just formed. -/
def Obligations.StripeZoneMarking : Prop :=
  ∀ (rom : Array Byte) (y x : Nat), y < 512 → x < 512 →
    surfAt (decodeRom rom) y x = (if 248 ≤ x ∧ x < 256 ∧ planeCode rom y x = 3 then 7 else planeCode rom y x) ∧
    (surfAt (decodeRom rom) y x = 7 ↔ 248 ≤ x ∧ x < 256 ∧ planeCode rom y x = 3)

/-- R69: row 512 holds 512 entries equal to 3, whatever the ROM. -/
def Obligations.SyntheticRowIsOffRoad : Prop :=
  ∀ (rom : Array Byte) (x : Nat), x < 512 → surfAt (decodeRom rom) 512 x = 3

/-- R11 and R71(b), (c): every table the decoder makes is legal, for every ROM. -/
def Obligations.DecodedTableIsLegal : Prop :=
  ∀ rom : Array Byte, SurfLegal (decodeRom rom)

/-- R49 and R71(d): with 32768 bytes of ROM, rows `y` and `y + 256` are equal. -/
def Obligations.HalfSizeRomRepeatsItsBank : Prop :=
  ∀ (rom : Array Byte) (y x : Nat), rom.size = 32768 → y < 256 → x < 512 →
    surfAt (decodeRom rom) (y + 256) x = surfAt (decodeRom rom) y x

/-- R70: bytes at addresses 65536 and above are never read. -/
def Obligations.ExcessRomBytesAreNeverRead : Prop :=
  ∀ rom rom' : Array Byte, 65536 ≤ rom.size → 65536 ≤ rom'.size →
    (∀ addr, addr < 65536 → rom.getD addr 0 = rom'.getD addr 0) → decodeRom rom = decodeRom rom'

/-! ### The Register and Buffer Store -/

/-- R31: the index is `addr[11:1]`; two addresses with the same bits 11:1 write the same word, whatever bit 0 and bits 31:12 are. -/
def Obligations.WindowIndexIsBits11To1 : Prop :=
  (∀ addr : Word32, windowIndex addr = (addr.extractLsb' 1 11).toNat) ∧
  (∀ (s : State) (addr addr' : Word32) (value : Word16), addr.extractLsb' 1 11 = addr'.extractLsb' 1 11 →
    exec (.wr16 addr value) s = exec (.wr16 addr' value) s)

/-- WR16 (R73): one word of `RAM_W` changes, to the value; nothing else does, `RAM_L` in particular. -/
def Obligations.Wr16Completes : Prop :=
  ∀ (s : State) (addr : Word32) (value : Word16), s.launched = true →
    ∃ t, exec (.wr16 addr value) s = .next t ∧
      (∀ i, t.ramW.read i = if i = windowIndex addr then value else s.ramW.read i) ∧
      { t with ramW := s.ramW, resp := s.resp } = s

/-- WR16A (R74): as WR16, and the response is `(addr + 2) mod 2^32` (the wrap is the spec's decision D3, log 21). -/
def Obligations.Wr16aCompletes : Prop :=
  ∀ (s : State) (addr : Word32) (value : Word16), s.launched = true →
    ∃ t, exec (.wr16a addr value) s = .next t ∧
      (∀ i, t.ramW.read i = if i = windowIndex addr then value else s.ramW.read i) ∧
      t.resp.toNat = (addr.toNat + 2) % 2 ^ 32 ∧
      { t with ramW := s.ramW, resp := s.resp } = s

/-- WR32A (R75): the high half goes to the word the address selects, the low half to the word after it, which is word 0 after word 2047; the response is `(addr + 4) mod 2^32` (decision D3, log 21). -/
def Obligations.Wr32aCompletes : Prop :=
  ∀ (s : State) (addr value : Word32), s.launched = true →
    ∃ t, exec (.wr32a addr value) s = .next t ∧
      (∀ i, t.ramW.read i =
        if i = windowIndex (addr + 2) then value.extractLsb' 0 16
        else if i = windowIndex addr then value.extractLsb' 16 16 else s.ramW.read i) ∧
      windowIndex (addr + 2) = (windowIndex addr + 1) % 2048 ∧
      t.resp.toNat = (addr.toNat + 4) % 2 ^ 32 ∧
      { t with ramW := s.ramW, resp := s.resp } = s

/-- A dword write leaves in the bank what two word writes leave, high half first (R36(b), R75). -/
def Obligations.DwordWriteIsTwoWordWrites : Prop :=
  ∀ (s : State) (addr value : Word32), s.launched = true →
    ∃ t u, exec (.wr32a addr value) s = .next t ∧
      runOps [.wr16 addr (value.extractLsb' 16 16), .wr16 (addr + 2) (value.extractLsb' 0 16)] s = .next u ∧
      { t with resp := s.resp } = { u with resp := s.resp }

/-- A host that follows the cursor writes consecutive words: up to 2048 values written with WR16A, each at the cursor the one before answered, stand in as many words from the first one on, indices modulo 2048, and every other word is as it was. Where the cursor passes 2^32 it wraps by the spec's decision D3 (log 21). -/
def Obligations.CursorWritesConsecutiveWords : Prop :=
  ∀ (vs : List Word16) (s : State) (addr : Word32), s.launched = true → vs.length ≤ 2048 →
    ∃ t, streamWords addr vs s = .next t ∧
      (∀ k (h : k < vs.length), t.ramW.read ((windowIndex addr + k) % 2048) = vs[k]) ∧
      (∀ i, (∀ k, k < vs.length → i ≠ (windowIndex addr + k) % 2048) → t.ramW.read i = s.ramW.read i)

/-- RDCTL (R14): every word of the one bank is exchanged with the same word of the other, and nothing else changes. -/
def Obligations.RdctlExchangesTheBanks : Prop :=
  ∀ s : State, s.launched = true →
    ∃ t, exec .rdctl s = .next t ∧
      (∀ i, t.ramW.read i = s.ramL.read i ∧ t.ramL.read i = s.ramW.read i) ∧
      { t with ramW := s.ramW, ramL := s.ramL, resp := s.resp } = s

/-- RDCTL's response is `SENTINEL`, zero extended to 32 bits, the same in every state with these parameters; in particular it is not the control byte (R64, R76; `SENTINEL` is a parameter, and its width is the spec's decision D13, log 15). -/
def Obligations.RdctlAnswersTheSentinel : Prop :=
  ∀ s s' : State, s.launched = true → s'.launched = true → s.cfg = s'.cfg →
    ∃ t t', exec .rdctl s = .next t ∧ exec .rdctl s' = .next t' ∧
      t.resp.toNat = s.cfg.sentinel.toNat ∧ t'.resp = t.resp

/-- The loop of R76: exchanging the words 0 to 2047 slot by slot leaves exactly the state RDCTL leaves, for banks in canonical form. -/
def Obligations.SwapIsTheSlotBySlotLoop : Prop :=
  ∀ s : State, s.launched = true → s.ramW.wf = true → s.ramL.wf = true →
    ∃ t, exec .rdctl s = .next t ∧
      { t with resp := s.resp } = (List.range 2048).foldl exchangeSlot s

/-- R77(b): after any sequence of word writes and one swap the latched bank yields those words and, elsewhere, what the writable bank held; the writable bank holds what the latched bank held before. -/
def Obligations.SwapDeliversTheWrites : Prop :=
  ∀ (writes : List (Word32 × Word16)) (s : State), s.launched = true →
    ∃ t, runOps (writes.map (fun w => Instr.wr16 w.1 w.2) ++ [.rdctl]) s = .next t ∧
      (∀ i, t.ramL.read i = (lastWrite writes i).getD (s.ramW.read i)) ∧
      t.ramW = s.ramL

/-- R118: a word written for one frame and not rewritten for the next is gone from the next frame and stands in the writable bank, to come back with the swap after. -/
def Obligations.AWordNotRewrittenReturnsTwoSwapsLater : Prop :=
  ∀ (s : State) (a b : Word32) (v w : Word16), s.launched = true → windowIndex a ≠ windowIndex b →
    ∃ t u, runOps [.wr16 a v, .rdctl, .wr16 b w, .rdctl] s = .next t ∧
      t.ramL.read (windowIndex b) = w ∧
      t.ramL.read (windowIndex a) = s.ramL.read (windowIndex a) ∧
      t.ramW.read (windowIndex a) = v ∧
      exec .rdctl t = .next u ∧ u.ramL.read (windowIndex a) = v

/-- WRCTL (R78): the byte goes to `CTRL`, and nothing else changes; no swap happens. That bits 7:3 are stored with the rest is the spec's decision D15 (log 17). -/
def Obligations.WrctlCompletes : Prop :=
  ∀ (s : State) (byte : Byte), s.launched = true →
    ∃ t, exec (.wrctl byte) s = .next t ∧ t.ctrl = byte ∧ { t with ctrl := s.ctrl, resp := s.resp } = s

/-- SETOFF1, SETOFF2, SETOFF3 and SETXOFF (R79 to R82): each loads its own register with the 16-bit value and changes nothing else (names and widths are the spec's decisions D14 and D16, log 16, log 18). -/
def Obligations.SettersComplete : Prop :=
  ∀ (s : State) (value : Word16), s.launched = true →
    (∃ t, exec (.setoff1 value) s = .next t ∧ t.off1 = value ∧ { t with off1 := s.off1, resp := s.resp } = s) ∧
    (∃ t, exec (.setoff2 value) s = .next t ∧ t.off2 = value ∧ { t with off2 := s.off2, resp := s.resp } = s) ∧
    (∃ t, exec (.setoff3 value) s = .next t ∧ t.off3 = value ∧ { t with off3 := s.off3, resp := s.resp } = s) ∧
    (∃ t, exec (.setxoff value) s = .next t ∧ t.xoff = value ∧ { t with xoff := s.xoff, resp := s.resp } = s)

/-! ### The Background Compositor -/

/-- R86: the selection table, by the value of `CTRL[1:0]`, the solid bits and bits 6:0 of the control words. -/
def Obligations.BackgroundSelectionTable : Prop :=
  ∀ (ctrl : Byte) (d0 d1 : Word16),
    let sel := skySelect (modeOf ctrl) d0 d1
    let s0 := d0 &&& 0x800 ≠ 0
    let s1 := d1 &&& 0x800 ≠ 0
    let k0 := d0.extractLsb' 0 7
    let k1 := d1.extractLsb' 0 7
    (ctrl.toNat % 4 = 0 → sel = if s0 then some k0 else none) ∧
    (ctrl.toNat % 4 = 1 → sel = if s0 then some k0 else if s1 then some k1 else none) ∧
    (ctrl.toNat % 4 = 2 → sel = if s1 then some k1 else if s0 then some k0 else none) ∧
    (ctrl.toNat % 4 = 3 → sel = if s1 then some k1 else none)

/-- RBG (R85, R87): a line with a selected colour is filled with `color | OFF3`, every other line and everything but `PIX` stays as it was. -/
def Obligations.RbgCompletes : Prop :=
  ∀ s : State, s.launched = true →
    ∃ t, exec .rbg s = .next t ∧ { t with pix := s.pix, resp := s.resp } = s ∧
      ∀ y x, y < 224 → x < 320 →
        pixAt t.pix y x =
          match skySelect (modeOf s.ctrl) (ctrlWord s .zero y) (ctrlWord s .one y) with
          | some c => some (c.setWidth 16 ||| s.off3)
          | none => pixAt s.pix y x

/-- R89: RBG's result is a function of words 0x000 to 0x0DF and 0x100 to 0x1DF of `RAM_L`, `CTRL[1:0]` and `OFF3`; with those words zero it writes nothing; a second RBG writes the same values (it leaves the whole state of the first, the response word with it: the constant 0 is the model's choice, log 3). -/
def Obligations.BackgroundDependsOnItsInputsAlone : Prop :=
  (∀ s s' : State, s.launched = true → s'.launched = true →
    (∀ i, i < 0xE0 → s.ramL.read i = s'.ramL.read i ∧ s.ramL.read (0x100 + i) = s'.ramL.read (0x100 + i)) →
    s.ctrl.extractLsb' 0 2 = s'.ctrl.extractLsb' 0 2 → s.off3 = s'.off3 → s.pix = s'.pix →
    ∃ t t', exec .rbg s = .next t ∧ exec .rbg s' = .next t' ∧ t.pix = t'.pix) ∧
  (∀ s : State, s.launched = true →
    (∀ i, i < 0xE0 → s.ramL.read i = 0 ∧ s.ramL.read (0x100 + i) = 0) →
    ∃ t, exec .rbg s = .next t ∧ t.pix = s.pix) ∧
  (∀ s : State, s.launched = true → ∃ t, exec .rbg s = .next t ∧ exec .rbg t = .next t)

/-! ### The Foreground Compositor -/

/-- RFG (R90): a skipped line and everything but `PIX` stays as it was; every pixel of a line that is drawn gets the colour step 4 makes of the two codes shown there. The formulas behind the colours and the phase are the spec's decisions D6 to D12 (log 8 to log 14). -/
def Obligations.RfgCompletes : Prop :=
  ∀ s : State, s.launched = true →
    ∃ t, exec .rfg s = .next t ∧ { t with pix := s.pix, resp := s.resp } = s ∧
      ∀ y x, y < 224 → x < 320 →
        pixAt t.pix y x =
          if drawn s y then
            some (pixelColour s.cfg (modeOf s.ctrl) (colourTable s .zero y) (colourTable s .one y)
              (shownCode s .zero y x) (shownCode s .one y x))
          else pixAt s.pix y x

/-- R91: RFG writes nothing on a line with both solid bits set; a strip's row is the synthetic row 512 if it is solid, else `base + ((data >> 1) & 0xff)` with base 0 for strip 0 and 256 for strip 1. -/
def Obligations.LineSkipAndSurfaceRow : Prop :=
  (∀ (s : State) (y : Nat), s.launched = true →
    ctrlWord s .zero y &&& 0x800 ≠ 0 → ctrlWord s .one y &&& 0x800 ≠ 0 →
    ∃ t, exec .rfg s = .next t ∧ ∀ x, pixAt t.pix y x = pixAt s.pix y x) ∧
  (∀ d : Word16,
    surfaceRow .zero d = (if d &&& 0x800 ≠ 0 then 512 else 0 + ((d >>> 1) &&& 0xff).toNat) ∧
    surfaceRow .one d = (if d &&& 0x800 ≠ 0 then 512 else 256 + ((d >>> 1) &&& 0xff).toNat))

/-- R35: the table index is `y` (for strip 1 plus `DIRECT_BIAS1`, decision D7, log 9) if bit 2 of `CTRL` is set, else the low 9 bits of the strip's control word; with the default parameters the index is at most 511 and the read does not wrap (bases by decision D6, log 8). -/
def Obligations.TableIndexStaysInItsTable : Prop :=
  (∀ (s : State) (y : Nat),
    tableIndex s .zero y = (if s.ctrl &&& 4 ≠ 0 then y else (ctrlWord s .zero y &&& 0x1FF).toNat) ∧
    tableIndex s .one y = (if s.ctrl &&& 4 ≠ 0 then s.cfg.directBias1 + y else (ctrlWord s .one y &&& 0x1FF).toNat)) ∧
  (∀ (s : State) (rom : Array Byte) (strip : Strip) (y : Nat), s.cfg = defaultConfig rom → y < 224 →
    tableIndex s strip y ≤ 511 ∧
    rawPosition s strip y =
      (s.ramL.read ((match strip with | .zero => 0x200 | .one => 0x400) + tableIndex s strip y)).extractLsb' 0 12 ∧
    colourSelect s strip y = s.ramL.read (0x600 + tableIndex s strip y))

/-- R93: the colour tables, written with shifts and masks (bit positions, selectors and polarity are the spec's decisions D8, D9 and D10, log 10 to log 12). -/
def Obligations.ColourTableEntries : Prop :=
  ∀ (s : State) (y : Nat),
    let c0 := colourSelect s .zero y
    let c1 := colourSelect s .one y
    let ct0 := colourTable s .zero y
    let ct1 := colourTable s .one y
    ct0.c0 = s.off1 ^^^ s.cfg.strip0.sel0 ^^^ (c0 &&& 1) ∧
    ct0.c1 = s.off1 ^^^ s.cfg.strip0.sel1 ^^^ ((c0 >>> 1) &&& 1) ∧
    ct0.c2 = s.off1 ^^^ s.cfg.strip0.sel2 ^^^ ((c0 >>> 2) &&& 1) ∧
    ct0.c7 = s.off1 ^^^ s.cfg.strip0.sel7 ^^^ ((c0 >>> 3) &&& 1) ∧
    ct0.c3 = (if ctrlWord s .zero y &&& 0x200 ≠ 0 then ct0.c0
      else s.off2 ^^^ s.cfg.strip0.bgSel ^^^ ((c0 >>> 8) &&& 0xF)) ∧
    ct1.c0 = s.off1 ^^^ s.cfg.strip1.sel0 ^^^ ((c1 >>> 4) &&& 1) ∧
    ct1.c1 = s.off1 ^^^ s.cfg.strip1.sel1 ^^^ ((c1 >>> 5) &&& 1) ∧
    ct1.c2 = s.off1 ^^^ s.cfg.strip1.sel2 ^^^ ((c1 >>> 6) &&& 1) ∧
    ct1.c7 = s.off1 ^^^ s.cfg.strip1.sel7 ^^^ ((c1 >>> 7) &&& 1) ∧
    ct1.c3 = (if ctrlWord s .one y &&& 0x200 ≠ 0 then ct1.c0
      else s.off2 ^^^ s.cfg.strip1.bgSel ^^^ ((c1 >>> 8) &&& 0xF))

/-- R94: the start column is `(hraw - (PHASE + XOFF)) mod 4096` over the integers, and only `XOFF[11:0]` can influence it (decision D11, log 13; R19). -/
def Obligations.PhaseAdjustment : Prop :=
  ∀ (s : State) (strip : Strip) (y : Nat),
    ((startCursor s strip y).toNat : Int) =
      (((rawPosition s strip y).toNat : Int) - ((s.cfg.phase : Int) + (s.xoff.toNat : Int))) % 4096 ∧
    startCursor s strip y = startCursor { s with xoff := s.xoff &&& 0xFFF } strip y

/-- R95: a position of 512 or more gives code 3, any other the table's entry; a solid strip of a legal table gives code 3 at every position. -/
def Obligations.PixelCodeLookup : Prop :=
  (∀ (surf : SurfaceTable) (row : Nat) (h : Column),
    (512 ≤ h.toNat → codeAt surf row h = 3) ∧ (h.toNat < 512 → codeAt surf row h = surfAt surf row h.toNat)) ∧
  (∀ (s : State) (strip : Strip) (y x : Nat), SurfLegal s.surf → solid (ctrlWord s strip y) = true →
    shownCode s strip y x = 3)

/-- R98: at pixel `x` both cursors have advanced by `x`, wrapping modulo 4096. -/
def Obligations.CursorsAdvanceInLockstepModulo4096 : Prop :=
  ∀ (pixel : Column → Column → Word16) (h0 h1 : Column) (x : Nat) (hx : x < 320),
    (rasterLine pixel h0 h1)[x] =
      some (pixel (BitVec.ofNat 12 ((h0.toNat + x) % 4096)) (BitVec.ofNat 12 ((h1.toNat + x) % 4096)))

/-- R96 and R97: step 4 by mode; the priority test is bit `p1` of the row's entry for `p0`; the rest of the statement is R97's two tables for the default rows (decision D12, log 14). -/
def Obligations.PixelColourByMode : Prop :=
  (∀ (cfg : Config) (ct0 ct1 : ColourTable) (p0 p1 : Code),
    pixelColour cfg .strip0Only ct0 ct1 p0 p1 = colourEntry ct0 p0 ∧
    pixelColour cfg .strip1Only ct0 ct1 p0 p1 = colourEntry ct1 p1 ∧
    pixelColour cfg .preferStrip0 ct0 ct1 p0 p1 =
      (if ((cfg.prioMode1[p0.toNat]'p0.isLt) >>> p1.toNat) &&& 1 = 1 then colourEntry ct1 p1 else colourEntry ct0 p0) ∧
    pixelColour cfg .preferStrip1 ct0 ct1 p0 p1 =
      (if ((cfg.prioMode2[p0.toNat]'p0.isLt) >>> p1.toNat) &&& 1 = 1 then colourEntry ct1 p1 else colourEntry ct0 p0)) ∧
  (∀ (rom : Array Byte) (p0 p1 : Code), legalCode p0 → legalCode p1 →
    (strip1Wins (defaultConfig rom).prioMode1 p0 p1 = true ↔
      (p1 = 7 ∧ p0 ≠ 7) ∨ (p1 = 0 ∧ (p0 = 1 ∨ p0 = 2)) ∨ (p0 = 3 ∧ (p1 = 0 ∨ p1 = 1 ∨ p1 = 2))) ∧
    (strip1Wins (defaultConfig rom).prioMode2 p0 p1 = true ↔ p1 = 7 ∨ (p1 = 0 ∧ p0 ≠ 7) ∨ p0 = 3))

/-- R96, mode symmetry: in mode 0 a line of RFG's output depends on strip 0's data and tables alone, in mode 3 on strip 1's alone. Everything else of the two states may differ, the other strip's solid bit among it. Which bits of a colour-select word are a strip's own, and that both strips share the background colour, is the spec's decision D8 (log 10). -/
def Obligations.OneStripModesIgnoreTheOtherStrip : Prop :=
  ∀ (strip : Strip) (s s' : State) (y : Nat), s.launched = true → s'.launched = true → y < 224 →
    modeOf s.ctrl = onlyMode strip → modeOf s'.ctrl = onlyMode strip →
    s.cfg = s'.cfg → s.off1 = s'.off1 → s.off2 = s'.off2 → s.xoff = s'.xoff → SameStripInputs strip y s s' →
    (∀ x, pixAt s.pix y x = pixAt s'.pix y x) →
    ∃ t t', exec .rfg s = .next t ∧ exec .rfg s' = .next t' ∧ ∀ x, pixAt t.pix y x = pixAt t'.pix y x

/-- R99(e): RFG's result is a function of `RAM_L`, `CTRL[2:0]`, `OFF1`, `OFF2`, `XOFF[11:0]` and `SURF` alone; running it twice writes the same values (and leaves the whole state of the first run, the response word with it: the constant 0 is the model's choice, log 3). -/
def Obligations.ForegroundDependsOnItsInputsAlone : Prop :=
  (∀ s s' : State, s.launched = true → s'.launched = true → s.cfg = s'.cfg →
    (∀ i, i < 2048 → s.ramL.read i = s'.ramL.read i) →
    s.ctrl.extractLsb' 0 3 = s'.ctrl.extractLsb' 0 3 → s.off1 = s'.off1 → s.off2 = s'.off2 →
    s.xoff.extractLsb' 0 12 = s'.xoff.extractLsb' 0 12 → s.surf = s'.surf → s.pix = s'.pix →
    ∃ t t', exec .rfg s = .next t ∧ exec .rfg s' = .next t' ∧ t.pix = t'.pix) ∧
  (∀ s : State, s.launched = true → ∃ t, exec .rfg s = .next t ∧ exec .rfg t = .next t)

/-- R99(f): with the reset offsets and the default selectors (decisions D9 and D14, log 11, log 16) and a legal table, every value RFG writes lies in 0x0400 to 0x040F or in 0x0420 to 0x043F. -/
def Obligations.ForegroundPaletteRange : Prop :=
  ∀ s : State, s.launched = true → SurfLegal s.surf → s.cfg.strip0 = defaultStrip0 → s.cfg.strip1 = defaultStrip1 →
    s.off1 = 0x0400 → s.off2 = 0x0420 →
    ∃ t, exec .rfg s = .next t ∧
      ∀ y x, y < 224 → x < 320 → drawn s y = true →
        ∃ v : Word16, pixAt t.pix y x = some v ∧
          ((0x0400 ≤ v.toNat ∧ v.toNat ≤ 0x040F) ∨ (0x0420 ≤ v.toNat ∧ v.toNat ≤ 0x043F))

/-- R18 and R61: with `OFF3` at its reset value 0x0780 (decision D14, log 16) OR, XOR and addition give the same palette index, in 0x0780 to 0x07FF. -/
def Obligations.SkyPaletteRange : Prop :=
  ∀ c : BitVec 7, skyColour 0x0780 c = 0x0780 ^^^ c.setWidth 16 ∧ (skyColour 0x0780 c).toNat = 0x0780 + c.toNat

/-! ### Frames -/

/-- R88: where both strips are solid RFG alters no pixel of RBG's line. -/
def Obligations.BothSolidLinesBelongToTheBackground : Prop :=
  ∀ (s : State) (y : Nat), s.launched = true → y < 224 →
    solid (ctrlWord s .zero y) = true → solid (ctrlWord s .one y) = true →
    ∃ t u, exec .rbg s = .next t ∧ exec .rfg t = .next u ∧
      ∀ x, x < 320 → pixAt u.pix y x = pixAt t.pix y x ∧ (pixAt t.pix y x).isSome = true

/-- R88: in modes 1 and 2, on a line with exactly one solid strip, RBG fills all 320 entries and RFG overwrites them all: the picture is the one RFG alone would have made. -/
def Obligations.ForegroundOverwritesOneSolidStrip : Prop :=
  ∀ (s : State) (y : Nat), s.launched = true → y < 224 →
    (modeOf s.ctrl = .preferStrip0 ∨ modeOf s.ctrl = .preferStrip1) →
    solid (ctrlWord s .zero y) ≠ solid (ctrlWord s .one y) →
    ∃ t u v, exec .rbg s = .next t ∧ exec .rfg t = .next u ∧ exec .rfg s = .next v ∧
      ∀ x, x < 320 →
        (∃ k : BitVec 7, pixAt t.pix y x = some (k.setWidth 16 ||| s.off3)) ∧
        pixAt u.pix y x = pixAt v.pix y x ∧ (pixAt v.pix y x).isSome = true

/-- R88 and R111: after RBG and RFG with `CTRL` unchanged between them every entry of `PIX` has a value, for every mode and all control words. -/
def Obligations.AFrameWritesEveryPixel : Prop :=
  ∀ s : State, s.launched = true →
    ∃ t, runOps [.rbg, .rfg] s = .next t ∧ ∀ y x, y < 224 → x < 320 → (pixAt t.pix y x).isSome = true

/-- R119: a frame rendered again without a swap, with the registers unchanged, repeats the picture exactly; any host writes in between, with WR16, WR16A or WR32A, do not show. -/
def Obligations.AFrameWithoutASwapRepeats : Prop :=
  ∀ (s : State) (writes : List Instr), s.launched = true → (∀ i ∈ writes, writesWindow i = true) →
    ∃ t u, runOps [.rbg, .rfg] s = .next t ∧ runOps (writes ++ [.rbg, .rfg]) t = .next u ∧ u.pix = t.pix

/-- R119 and vector V22: rendering before any swap after RESET, with the default parameters (log 5), gives 0x0420 on every pixel in modes 0 and 1 and 0x0430 in modes 2 and 3, whatever was written to the window, with any number of WR16, WR16A and WR32A. The colours rest on the spec's decisions D9 to D12 and D14 (logs 11 to 14, 16). -/
def Obligations.RenderBeforeAnySwapIsFlat : Prop :=
  ∀ (s : State) (rom : Array Byte) (writes : List Instr) (byte : Byte),
    s.cfg = defaultConfig rom → rom.size ≠ 0 → (∀ i ∈ writes, writesWindow i = true) →
    ∃ t, runOps ([.reset] ++ writes ++ [.wrctl byte, .rbg, .rfg]) s = .next t ∧
      ∀ y x, y < 224 → x < 320 → pixAt t.pix y x = some (if byte.toNat % 4 ≤ 1 then 0x0420 else 0x0430)
end

