-- ==== Sys2Proof/Laws/Tables.lean ====
section
/-! SUPPORT. The laws of the surface table and the pixel buffer: what one place reads after a decode, a fill or a render pass. -/

namespace Sys2Proof.Machine

/-- A read of the surface table inside it is the entry, outside it the off-road code 3. -/
theorem surfAt_eq (t : SurfaceTable) (row col : Nat) :
    surfAt t row col = if h : row < 513 ∧ col < 512 then (t[row]'h.1)[col]'h.2 else 3 := by
  unfold surfAt
  by_cases hr : row < 513 <;> by_cases hc : col < 512 <;> simp [hr, hc]

/-- A read of the pixel buffer inside it is the entry, outside it `none`. -/
theorem pixAt_eq (p : PixelBuffer) (y x : Nat) :
    pixAt p y x = if h : y < 224 ∧ x < 320 then (p[y]'h.1)[x]'h.2 else none := by
  unfold pixAt
  by_cases hy : y < 224 <;> by_cases hx : x < 320 <;> simp [hy, hx]

theorem tabulate_getElem {α : Type} (f : Nat → α) (n k i : Nat) (h : i < (tabulate f n k).length) :
    (tabulate f n k)[i] = f (k + i) := by
  induction n generalizing k i with
  | zero => simp [tabulate] at h
  | succ n ih =>
    cases i with
    | zero => simp [tabulate]
    | succ i =>
      simp only [tabulate, List.getElem_cons_succ, ih]
      congr 1
      omega

@[simp] theorem tableOf_getElem {α : Type} (n : Nat) (f : Nat → α) (i : Nat) (h : i < n) : (tableOf n f)[i] = f i := by
  have := tabulate_getElem f n 0 i (by rw [tabulate_length]; exact h)
  simpa [tableOf] using this

/-- Every entry of the decoded table (R65). -/
theorem surfAt_decodeRom (rom : Array Byte) (row col : Nat) :
    surfAt (decodeRom rom) row col = if row < 513 ∧ col < 512 then decodedCode rom row col else 3 := by
  rw [surfAt_eq]
  unfold decodeRom
  split <;> simp_all

theorem paintLines_getElem (line : Nat → Option Line) (old : List Line) (y i : Nat)
    (h : i < (paintLines line y old).length) (h' : i < old.length) :
    (paintLines line y old)[i] = (line (y + i)).getD old[i] := by
  induction old generalizing y i with
  | nil => simp at h'
  | cons l rest ih =>
    cases i with
    | zero => simp [paintLines]
    | succ i =>
      simp only [paintLines, List.getElem_cons_succ]
      rw [ih (y + 1) i _ (by simpa using h')]
      congr 2
      omega

/-- What one entry of the buffer holds after a render pass: the line's entry where the pass writes the line, its old value otherwise. -/
theorem pixAt_paint (p : PixelBuffer) (line : Nat → Option Line) (y x : Nat) :
    pixAt (paint p line) y x =
      match line y with
      | some l => if h : y < 224 ∧ x < 320 then l[x]'h.2 else none
      | none => pixAt p y x := by
  rw [pixAt_eq, pixAt_eq]
  by_cases h : y < 224 ∧ x < 320
  · have hp : (paint p line)[y]'h.1 = (line y).getD (p[y]'h.1) := by
      have := paintLines_getElem line p.toList 0 y (by rw [paintLines_length]; simpa using h.1) (by simpa using h.1)
      unfold paint
      simpa using this
    rw [dif_pos h, dif_pos h, hp]
    cases line y <;> simp [h]
  · rw [dif_neg h, dif_neg h]
    cases line y <;> simp [h]

@[simp] theorem pixAt_unwrittenBuffer (y x : Nat) : pixAt unwrittenBuffer y x = none := by
  rw [pixAt_eq]
  unfold unwrittenBuffer
  split <;> simp

@[simp] theorem flatLine_getElem (v : Word16) (x : Nat) (h : x < 320) : (flatLine v)[x] = some v := by
  simp [flatLine]

/-- Entry `x` of a raster line is entry `x` of the raster loop (R98). -/
theorem rasterLine_getElem (pixel : Column → Column → Word16) (h0 h1 : Column) (x : Nat) (h : x < 320) :
    (rasterLine pixel h0 h1)[x] = (rasterEntries pixel 320 h0 h1)[x]'(by rw [rasterEntries_length]; exact h) := by
  unfold rasterLine
  rfl

/-- Two buffers that read alike at every place are the same buffer. -/
theorem pix_ext (p q : PixelBuffer) (h : ∀ y x, y < 224 → x < 320 → pixAt p y x = pixAt q y x) : p = q := by
  ext1 y hy
  ext1 x hx
  simpa [pixAt_eq, hy, hx] using h y x hy hx

/-- Two surface tables that read alike at every place are the same table. -/
theorem surf_ext (a b : SurfaceTable) (h : ∀ row col, row < 513 → col < 512 → surfAt a row col = surfAt b row col) :
    a = b := by
  ext1 row hr
  ext1 col hc
  simpa [surfAt_eq, hr, hc] using h row col hr hc

end Sys2Proof.Machine
end

