-- ==== Sys2Proof/Laws/Compositors.lean ====
section
/-! SUPPORT. What the two line functions answer, case by case. -/

namespace Sys2Proof.Machine

/-- RBG leaves a line without a selected colour (R85). -/
theorem backgroundLine_none (s : State) (y : Nat)
    (h : skySelect (modeOf s.ctrl) (ctrlWord s .zero y) (ctrlWord s .one y) = none) : backgroundLine s y = none := by
  simp [backgroundLine, h]

/-- RBG fills a line whose colour is selected (R87). -/
theorem backgroundLine_some (s : State) (y : Nat) (c : BitVec 7)
    (h : skySelect (modeOf s.ctrl) (ctrlWord s .zero y) (ctrlWord s .one y) = some c) :
    backgroundLine s y = some (flatLine (skyColour s.off3 c)) := by
  simp [backgroundLine, h]

/-- RFG skips a line (R91, R96). -/
theorem foregroundLine_skipped (s : State) (y : Nat)
    (h : foregroundSkips (modeOf s.ctrl) (ctrlWord s .zero y) (ctrlWord s .one y) = true) :
    foregroundLine s y = none := by
  unfold foregroundLine
  rw [if_pos h]

/-- RFG draws a line by the raster loop (R90). -/
theorem foregroundLine_drawn (s : State) (y : Nat)
    (h : foregroundSkips (modeOf s.ctrl) (ctrlWord s .zero y) (ctrlWord s .one y) = false) :
    foregroundLine s y =
      some (rasterLine
        (fun h0 h1 => pixelColour s.cfg (modeOf s.ctrl) (colourTable s .zero y) (colourTable s .one y)
          (codeAt s.surf (surfaceRow .zero (ctrlWord s .zero y)) h0)
          (codeAt s.surf (surfaceRow .one (ctrlWord s .one y)) h1))
        (startCursor s .zero y) (startCursor s .one y)) := by
  unfold foregroundLine
  rw [if_neg (by simp [h])]

/-- An entry of a colour table is one of its five for the codes that occur. -/
theorem colourEntry_zero (ct : ColourTable) : colourEntry ct 0 = ct.c0 := rfl
theorem colourEntry_one (ct : ColourTable) : colourEntry ct 1 = ct.c1 := rfl
theorem colourEntry_two (ct : ColourTable) : colourEntry ct 2 = ct.c2 := rfl
theorem colourEntry_three (ct : ColourTable) : colourEntry ct 3 = ct.c3 := rfl
theorem colourEntry_seven (ct : ColourTable) : colourEntry ct 7 = ct.c7 := rfl

end Sys2Proof.Machine
end

