-- ==== Sys2Proof/Laws/Decode.lean ====
section
/-! SUPPORT. The fields of a packed transaction word, and how packing meets a bit mask. -/

namespace Sys2Proof

@[simp] theorem opField_pack (op : Byte) (a d : Word32) : opField (packTransaction op a d) = op := by
  apply BitVec.eq_of_getLsbD_eq
  intro i hi
  simp only [opField, packTransaction, BitVec.getLsbD_extractLsb', BitVec.getLsbD_append]
  simp [hi]
  grind

@[simp] theorem addrField_pack (op : Byte) (a d : Word32) : addrField (packTransaction op a d) = a := by
  apply BitVec.eq_of_getLsbD_eq
  intro i hi
  simp only [addrField, packTransaction, BitVec.getLsbD_extractLsb', BitVec.getLsbD_append]
  simp [hi]

@[simp] theorem dataField_pack (op : Byte) (a d : Word32) : dataField (packTransaction op a d) = d := by
  apply BitVec.eq_of_getLsbD_eq
  intro i hi
  simp only [dataField, packTransaction, BitVec.getLsbD_extractLsb', BitVec.getLsbD_append]
  simp [hi]

/-- Every word is its three fields packed. -/
theorem pack_fields (t : Transaction) : packTransaction (opField t) (addrField t) (dataField t) = t := by
  apply BitVec.eq_of_getLsbD_eq
  intro i hi
  simp only [packTransaction, BitVec.getLsbD_append, opField, addrField, dataField, BitVec.getLsbD_extractLsb']
  split
  · next h => simp [h]
  · next h =>
    split
    · next h' =>
      have : 32 + (i - 32) = i := by omega
      simp [h', this]
    · next h' =>
      have : 64 + (i - 32 - 32) = i := by omega
      have h2 : i - 32 - 32 < 8 := by omega
      simp [h2, this]

/-- A mask acts on the three fields apart. -/
theorem pack_and (op op' : Byte) (a a' d d' : Word32) :
    packTransaction op a d &&& packTransaction op' a' d' = packTransaction (op &&& op') (a &&& a') (d &&& d') := by
  apply BitVec.eq_of_getLsbD_eq
  intro i hi
  simp only [packTransaction, BitVec.getLsbD_append, BitVec.getLsbD_and]
  split
  · rfl
  · split <;> rfl

theorem pack_inj (op op' : Byte) (a a' d d' : Word32) :
    packTransaction op a d = packTransaction op' a' d' ↔ op = op' ∧ a = a' ∧ d = d' := by
  constructor
  · intro h
    exact ⟨by simpa using congrArg opField h, by simpa using congrArg addrField h, by simpa using congrArg dataField h⟩
  · rintro ⟨rfl, rfl, rfl⟩
    rfl

end Sys2Proof
end

