-- ==== Sys2Proof/Laws/State.lean ====
section
/-! SUPPORT. What every named update of the state does to every field: one lemma per field per update, each true by unfolding. -/

namespace Sys2Proof.Machine

/-! ### `answer` -/

@[simp] theorem answer_cfg (s : State) (r : Word32) : (answer s r).cfg = s.cfg := rfl
@[simp] theorem answer_surf (s : State) (r : Word32) : (answer s r).surf = s.surf := rfl
@[simp] theorem answer_ramW (s : State) (r : Word32) : (answer s r).ramW = s.ramW := rfl
@[simp] theorem answer_ramL (s : State) (r : Word32) : (answer s r).ramL = s.ramL := rfl
@[simp] theorem answer_ctrl (s : State) (r : Word32) : (answer s r).ctrl = s.ctrl := rfl
@[simp] theorem answer_off1 (s : State) (r : Word32) : (answer s r).off1 = s.off1 := rfl
@[simp] theorem answer_off2 (s : State) (r : Word32) : (answer s r).off2 = s.off2 := rfl
@[simp] theorem answer_off3 (s : State) (r : Word32) : (answer s r).off3 = s.off3 := rfl
@[simp] theorem answer_xoff (s : State) (r : Word32) : (answer s r).xoff = s.xoff := rfl
@[simp] theorem answer_pix (s : State) (r : Word32) : (answer s r).pix = s.pix := rfl
@[simp] theorem answer_resp (s : State) (r : Word32) : (answer s r).resp = r := rfl
@[simp] theorem answer_pending (s : State) (r : Word32) : (answer s r).pending = s.pending := rfl
@[simp] theorem answer_launched (s : State) (r : Word32) : (answer s r).launched = s.launched := rfl

/-! ### `hostWrite16` -/

@[simp] theorem hostWrite16_cfg (s : State) (addr : Word32) (v : Word16) : (hostWrite16 s addr v).cfg = s.cfg := rfl
@[simp] theorem hostWrite16_surf (s : State) (addr : Word32) (v : Word16) : (hostWrite16 s addr v).surf = s.surf := rfl
@[simp] theorem hostWrite16_ramW (s : State) (addr : Word32) (v : Word16) : (hostWrite16 s addr v).ramW = s.ramW.write (windowIndex addr) v := rfl
@[simp] theorem hostWrite16_ramL (s : State) (addr : Word32) (v : Word16) : (hostWrite16 s addr v).ramL = s.ramL := rfl
@[simp] theorem hostWrite16_ctrl (s : State) (addr : Word32) (v : Word16) : (hostWrite16 s addr v).ctrl = s.ctrl := rfl
@[simp] theorem hostWrite16_off1 (s : State) (addr : Word32) (v : Word16) : (hostWrite16 s addr v).off1 = s.off1 := rfl
@[simp] theorem hostWrite16_off2 (s : State) (addr : Word32) (v : Word16) : (hostWrite16 s addr v).off2 = s.off2 := rfl
@[simp] theorem hostWrite16_off3 (s : State) (addr : Word32) (v : Word16) : (hostWrite16 s addr v).off3 = s.off3 := rfl
@[simp] theorem hostWrite16_xoff (s : State) (addr : Word32) (v : Word16) : (hostWrite16 s addr v).xoff = s.xoff := rfl
@[simp] theorem hostWrite16_pix (s : State) (addr : Word32) (v : Word16) : (hostWrite16 s addr v).pix = s.pix := rfl
@[simp] theorem hostWrite16_resp (s : State) (addr : Word32) (v : Word16) : (hostWrite16 s addr v).resp = s.resp := rfl
@[simp] theorem hostWrite16_pending (s : State) (addr : Word32) (v : Word16) : (hostWrite16 s addr v).pending = s.pending := rfl
@[simp] theorem hostWrite16_launched (s : State) (addr : Word32) (v : Word16) : (hostWrite16 s addr v).launched = s.launched := rfl

/-! ### `exchangeBanks` -/

@[simp] theorem exchangeBanks_cfg (s : State) : (exchangeBanks s).cfg = s.cfg := rfl
@[simp] theorem exchangeBanks_surf (s : State) : (exchangeBanks s).surf = s.surf := rfl
@[simp] theorem exchangeBanks_ramW (s : State) : (exchangeBanks s).ramW = s.ramL := rfl
@[simp] theorem exchangeBanks_ramL (s : State) : (exchangeBanks s).ramL = s.ramW := rfl
@[simp] theorem exchangeBanks_ctrl (s : State) : (exchangeBanks s).ctrl = s.ctrl := rfl
@[simp] theorem exchangeBanks_off1 (s : State) : (exchangeBanks s).off1 = s.off1 := rfl
@[simp] theorem exchangeBanks_off2 (s : State) : (exchangeBanks s).off2 = s.off2 := rfl
@[simp] theorem exchangeBanks_off3 (s : State) : (exchangeBanks s).off3 = s.off3 := rfl
@[simp] theorem exchangeBanks_xoff (s : State) : (exchangeBanks s).xoff = s.xoff := rfl
@[simp] theorem exchangeBanks_pix (s : State) : (exchangeBanks s).pix = s.pix := rfl
@[simp] theorem exchangeBanks_resp (s : State) : (exchangeBanks s).resp = s.resp := rfl
@[simp] theorem exchangeBanks_pending (s : State) : (exchangeBanks s).pending = s.pending := rfl
@[simp] theorem exchangeBanks_launched (s : State) : (exchangeBanks s).launched = s.launched := rfl

/-! ### `setPix` -/

@[simp] theorem setPix_cfg (s : State) (p : PixelBuffer) : (setPix s p).cfg = s.cfg := rfl
@[simp] theorem setPix_surf (s : State) (p : PixelBuffer) : (setPix s p).surf = s.surf := rfl
@[simp] theorem setPix_ramW (s : State) (p : PixelBuffer) : (setPix s p).ramW = s.ramW := rfl
@[simp] theorem setPix_ramL (s : State) (p : PixelBuffer) : (setPix s p).ramL = s.ramL := rfl
@[simp] theorem setPix_ctrl (s : State) (p : PixelBuffer) : (setPix s p).ctrl = s.ctrl := rfl
@[simp] theorem setPix_off1 (s : State) (p : PixelBuffer) : (setPix s p).off1 = s.off1 := rfl
@[simp] theorem setPix_off2 (s : State) (p : PixelBuffer) : (setPix s p).off2 = s.off2 := rfl
@[simp] theorem setPix_off3 (s : State) (p : PixelBuffer) : (setPix s p).off3 = s.off3 := rfl
@[simp] theorem setPix_xoff (s : State) (p : PixelBuffer) : (setPix s p).xoff = s.xoff := rfl
@[simp] theorem setPix_pix (s : State) (p : PixelBuffer) : (setPix s p).pix = p := rfl
@[simp] theorem setPix_resp (s : State) (p : PixelBuffer) : (setPix s p).resp = s.resp := rfl
@[simp] theorem setPix_pending (s : State) (p : PixelBuffer) : (setPix s p).pending = s.pending := rfl
@[simp] theorem setPix_launched (s : State) (p : PixelBuffer) : (setPix s p).launched = s.launched := rfl

/-! ### `setCtrl` -/

@[simp] theorem setCtrl_cfg (s : State) (b : Byte) : (setCtrl s b).cfg = s.cfg := rfl
@[simp] theorem setCtrl_surf (s : State) (b : Byte) : (setCtrl s b).surf = s.surf := rfl
@[simp] theorem setCtrl_ramW (s : State) (b : Byte) : (setCtrl s b).ramW = s.ramW := rfl
@[simp] theorem setCtrl_ramL (s : State) (b : Byte) : (setCtrl s b).ramL = s.ramL := rfl
@[simp] theorem setCtrl_ctrl (s : State) (b : Byte) : (setCtrl s b).ctrl = b := rfl
@[simp] theorem setCtrl_off1 (s : State) (b : Byte) : (setCtrl s b).off1 = s.off1 := rfl
@[simp] theorem setCtrl_off2 (s : State) (b : Byte) : (setCtrl s b).off2 = s.off2 := rfl
@[simp] theorem setCtrl_off3 (s : State) (b : Byte) : (setCtrl s b).off3 = s.off3 := rfl
@[simp] theorem setCtrl_xoff (s : State) (b : Byte) : (setCtrl s b).xoff = s.xoff := rfl
@[simp] theorem setCtrl_pix (s : State) (b : Byte) : (setCtrl s b).pix = s.pix := rfl
@[simp] theorem setCtrl_resp (s : State) (b : Byte) : (setCtrl s b).resp = s.resp := rfl
@[simp] theorem setCtrl_pending (s : State) (b : Byte) : (setCtrl s b).pending = s.pending := rfl
@[simp] theorem setCtrl_launched (s : State) (b : Byte) : (setCtrl s b).launched = s.launched := rfl

/-! ### `setOff1` -/

@[simp] theorem setOff1_cfg (s : State) (v : Word16) : (setOff1 s v).cfg = s.cfg := rfl
@[simp] theorem setOff1_surf (s : State) (v : Word16) : (setOff1 s v).surf = s.surf := rfl
@[simp] theorem setOff1_ramW (s : State) (v : Word16) : (setOff1 s v).ramW = s.ramW := rfl
@[simp] theorem setOff1_ramL (s : State) (v : Word16) : (setOff1 s v).ramL = s.ramL := rfl
@[simp] theorem setOff1_ctrl (s : State) (v : Word16) : (setOff1 s v).ctrl = s.ctrl := rfl
@[simp] theorem setOff1_off1 (s : State) (v : Word16) : (setOff1 s v).off1 = v := rfl
@[simp] theorem setOff1_off2 (s : State) (v : Word16) : (setOff1 s v).off2 = s.off2 := rfl
@[simp] theorem setOff1_off3 (s : State) (v : Word16) : (setOff1 s v).off3 = s.off3 := rfl
@[simp] theorem setOff1_xoff (s : State) (v : Word16) : (setOff1 s v).xoff = s.xoff := rfl
@[simp] theorem setOff1_pix (s : State) (v : Word16) : (setOff1 s v).pix = s.pix := rfl
@[simp] theorem setOff1_resp (s : State) (v : Word16) : (setOff1 s v).resp = s.resp := rfl
@[simp] theorem setOff1_pending (s : State) (v : Word16) : (setOff1 s v).pending = s.pending := rfl
@[simp] theorem setOff1_launched (s : State) (v : Word16) : (setOff1 s v).launched = s.launched := rfl

/-! ### `setOff2` -/

@[simp] theorem setOff2_cfg (s : State) (v : Word16) : (setOff2 s v).cfg = s.cfg := rfl
@[simp] theorem setOff2_surf (s : State) (v : Word16) : (setOff2 s v).surf = s.surf := rfl
@[simp] theorem setOff2_ramW (s : State) (v : Word16) : (setOff2 s v).ramW = s.ramW := rfl
@[simp] theorem setOff2_ramL (s : State) (v : Word16) : (setOff2 s v).ramL = s.ramL := rfl
@[simp] theorem setOff2_ctrl (s : State) (v : Word16) : (setOff2 s v).ctrl = s.ctrl := rfl
@[simp] theorem setOff2_off1 (s : State) (v : Word16) : (setOff2 s v).off1 = s.off1 := rfl
@[simp] theorem setOff2_off2 (s : State) (v : Word16) : (setOff2 s v).off2 = v := rfl
@[simp] theorem setOff2_off3 (s : State) (v : Word16) : (setOff2 s v).off3 = s.off3 := rfl
@[simp] theorem setOff2_xoff (s : State) (v : Word16) : (setOff2 s v).xoff = s.xoff := rfl
@[simp] theorem setOff2_pix (s : State) (v : Word16) : (setOff2 s v).pix = s.pix := rfl
@[simp] theorem setOff2_resp (s : State) (v : Word16) : (setOff2 s v).resp = s.resp := rfl
@[simp] theorem setOff2_pending (s : State) (v : Word16) : (setOff2 s v).pending = s.pending := rfl
@[simp] theorem setOff2_launched (s : State) (v : Word16) : (setOff2 s v).launched = s.launched := rfl

/-! ### `setOff3` -/

@[simp] theorem setOff3_cfg (s : State) (v : Word16) : (setOff3 s v).cfg = s.cfg := rfl
@[simp] theorem setOff3_surf (s : State) (v : Word16) : (setOff3 s v).surf = s.surf := rfl
@[simp] theorem setOff3_ramW (s : State) (v : Word16) : (setOff3 s v).ramW = s.ramW := rfl
@[simp] theorem setOff3_ramL (s : State) (v : Word16) : (setOff3 s v).ramL = s.ramL := rfl
@[simp] theorem setOff3_ctrl (s : State) (v : Word16) : (setOff3 s v).ctrl = s.ctrl := rfl
@[simp] theorem setOff3_off1 (s : State) (v : Word16) : (setOff3 s v).off1 = s.off1 := rfl
@[simp] theorem setOff3_off2 (s : State) (v : Word16) : (setOff3 s v).off2 = s.off2 := rfl
@[simp] theorem setOff3_off3 (s : State) (v : Word16) : (setOff3 s v).off3 = v := rfl
@[simp] theorem setOff3_xoff (s : State) (v : Word16) : (setOff3 s v).xoff = s.xoff := rfl
@[simp] theorem setOff3_pix (s : State) (v : Word16) : (setOff3 s v).pix = s.pix := rfl
@[simp] theorem setOff3_resp (s : State) (v : Word16) : (setOff3 s v).resp = s.resp := rfl
@[simp] theorem setOff3_pending (s : State) (v : Word16) : (setOff3 s v).pending = s.pending := rfl
@[simp] theorem setOff3_launched (s : State) (v : Word16) : (setOff3 s v).launched = s.launched := rfl

/-! ### `setXoff` -/

@[simp] theorem setXoff_cfg (s : State) (v : Word16) : (setXoff s v).cfg = s.cfg := rfl
@[simp] theorem setXoff_surf (s : State) (v : Word16) : (setXoff s v).surf = s.surf := rfl
@[simp] theorem setXoff_ramW (s : State) (v : Word16) : (setXoff s v).ramW = s.ramW := rfl
@[simp] theorem setXoff_ramL (s : State) (v : Word16) : (setXoff s v).ramL = s.ramL := rfl
@[simp] theorem setXoff_ctrl (s : State) (v : Word16) : (setXoff s v).ctrl = s.ctrl := rfl
@[simp] theorem setXoff_off1 (s : State) (v : Word16) : (setXoff s v).off1 = s.off1 := rfl
@[simp] theorem setXoff_off2 (s : State) (v : Word16) : (setXoff s v).off2 = s.off2 := rfl
@[simp] theorem setXoff_off3 (s : State) (v : Word16) : (setXoff s v).off3 = s.off3 := rfl
@[simp] theorem setXoff_xoff (s : State) (v : Word16) : (setXoff s v).xoff = v := rfl
@[simp] theorem setXoff_pix (s : State) (v : Word16) : (setXoff s v).pix = s.pix := rfl
@[simp] theorem setXoff_resp (s : State) (v : Word16) : (setXoff s v).resp = s.resp := rfl
@[simp] theorem setXoff_pending (s : State) (v : Word16) : (setXoff s v).pending = s.pending := rfl
@[simp] theorem setXoff_launched (s : State) (v : Word16) : (setXoff s v).launched = s.launched := rfl

/-! ### `issueNext` -/

@[simp] theorem issueNext_cfg (s : State) (t : Transaction) : (issueNext s t).cfg = s.cfg := rfl
@[simp] theorem issueNext_surf (s : State) (t : Transaction) : (issueNext s t).surf = s.surf := rfl
@[simp] theorem issueNext_ramW (s : State) (t : Transaction) : (issueNext s t).ramW = s.ramW := rfl
@[simp] theorem issueNext_ramL (s : State) (t : Transaction) : (issueNext s t).ramL = s.ramL := rfl
@[simp] theorem issueNext_ctrl (s : State) (t : Transaction) : (issueNext s t).ctrl = s.ctrl := rfl
@[simp] theorem issueNext_off1 (s : State) (t : Transaction) : (issueNext s t).off1 = s.off1 := rfl
@[simp] theorem issueNext_off2 (s : State) (t : Transaction) : (issueNext s t).off2 = s.off2 := rfl
@[simp] theorem issueNext_off3 (s : State) (t : Transaction) : (issueNext s t).off3 = s.off3 := rfl
@[simp] theorem issueNext_xoff (s : State) (t : Transaction) : (issueNext s t).xoff = s.xoff := rfl
@[simp] theorem issueNext_pix (s : State) (t : Transaction) : (issueNext s t).pix = s.pix := rfl
@[simp] theorem issueNext_resp (s : State) (t : Transaction) : (issueNext s t).resp = s.resp := rfl
@[simp] theorem issueNext_pending (s : State) (t : Transaction) : (issueNext s t).pending = t :: s.pending := rfl
@[simp] theorem issueNext_launched (s : State) (t : Transaction) : (issueNext s t).launched = s.launched := rfl

/-! ### `resetState` -/

@[simp] theorem resetState_cfg (s : State) : (resetState s).cfg = s.cfg := rfl
@[simp] theorem resetState_surf (s : State) : (resetState s).surf = decodeRom s.cfg.rom := rfl
@[simp] theorem resetState_ramW (s : State) : (resetState s).ramW = bankReset := rfl
@[simp] theorem resetState_ramL (s : State) : (resetState s).ramL = bankReset := rfl
@[simp] theorem resetState_ctrl (s : State) : (resetState s).ctrl = ctrlReset := rfl
@[simp] theorem resetState_off1 (s : State) : (resetState s).off1 = s.cfg.off1Reset := rfl
@[simp] theorem resetState_off2 (s : State) : (resetState s).off2 = s.cfg.off2Reset := rfl
@[simp] theorem resetState_off3 (s : State) : (resetState s).off3 = s.cfg.off3Reset := rfl
@[simp] theorem resetState_xoff (s : State) : (resetState s).xoff = xoffReset := rfl
@[simp] theorem resetState_pix (s : State) : (resetState s).pix = s.pix := rfl
@[simp] theorem resetState_resp (s : State) : (resetState s).resp = noResponse := rfl
@[simp] theorem resetState_pending (s : State) : (resetState s).pending = s.pending := rfl
@[simp] theorem resetState_launched (s : State) : (resetState s).launched = true := rfl

end Sys2Proof.Machine
end

