-- ==== Sys2Proof/Laws/Exec.lean ====
section
/-! SUPPORT. What the shared operations can do, said once: the launch guard, RESET, the fetch of an issued operation and one step. -/

namespace Sys2Proof.Machine

/-- The launch guard answers a next state exactly when a RESET has been performed, and then the given one (R111). -/
theorem whenLaunched_next_iff (s t u : State) :
    whenLaunched s t = .next u ↔ s.launched = true ∧ u = t := by
  cases h : s.launched <;> simp [whenLaunched, h, eq_comm (a := t)]

theorem whenLaunched_of (s t : State) (h : s.launched = true) : whenLaunched s t = .next t := by
  simp [whenLaunched, h]

/-- RESET answers a next state exactly when the ROM has a byte, and then the reset state (R110, R112). -/
theorem execReset_next_iff (s u : State) :
    execReset s = .next u ↔ s.cfg.rom.toList.isEmpty = false ∧ u = resetState s := by
  cases h : s.cfg.rom.toList.isEmpty <;> simp [execReset, h, eq_comm (a := resetState s)]

theorem takeIssued_nil (s : State) (h : s.pending = []) : takeIssued s = none := by
  simp [takeIssued, h]

theorem takeIssued_cons (s : State) (t : Transaction) (rest : List Transaction) (h : s.pending = t :: rest) :
    takeIssued s = some (t, { s with pending := rest }) := by
  simp [takeIssued, h]

/-- The state an operation other than RESET leads to, written once for each. -/
def effect (i : Instr) (s : State) : State :=
  match i with
  | .reset => resetState s
  | .wr16 addr value => answer (hostWrite16 s addr value) noResponse
  | .wr16a addr value => answer (hostWrite16 s addr value) (advance addr 2)
  | .wr32a addr value => answer (hostWrite32 s addr value) (advance addr 4)
  | .rdctl => answer (exchangeBanks s) (s.cfg.sentinel.setWidth 32)
  | .wrctl byte => answer (setCtrl s byte) noResponse
  | .rbg => answer (setPix s (paint s.pix (backgroundLine s))) noResponse
  | .rfg => answer (setPix s (paint s.pix (foregroundLine s))) noResponse
  | .setoff1 value => answer (setOff1 s value) noResponse
  | .setoff2 value => answer (setOff2 s value) noResponse
  | .setoff3 value => answer (setOff3 s value) noResponse
  | .setxoff value => answer (setXoff s value) noResponse

/-- One operation, said once: where it answers a next state, that state is its effect, and it answers one only under its premise (R111, R112). -/
theorem exec_next_iff (i : Instr) (s t : State) :
    exec i s = .next t ↔
      (if i = .reset then s.cfg.rom.toList.isEmpty = false else s.launched = true) ∧ t = effect i s := by
  cases i <;>
    simp [exec, effect, execReset_next_iff, whenLaunched_next_iff, execWr16, execWr16a, execWr32a, execRdctl, execWrctl,
      execRbg, execRfg, execSetoff1, execSetoff2, execSetoff3, execSetxoff]

/-- One step, said once: nothing issued and nothing changed, or the oldest issued operation performed. -/
theorem step_next_iff (s t : State) :
    step s = .next t ↔
      (s.pending = [] ∧ t = s) ∨
        ∃ w rest i, s.pending = w :: rest ∧ decode w = .ok i ∧ exec i { s with pending := rest } = .next t := by
  unfold step
  cases hp : s.pending with
  | nil => simp [takeIssued_nil s hp, eq_comm]
  | cons w rest =>
    rw [takeIssued_cons s w rest hp]
    cases hd : decode w with
    | error e => simp [hd]
    | ok i => simp [hd]

/-! ### The host's run, one step at a time -/

theorem run_zero (M : Host.Core) (s : M.State) : M.run 0 s = .next s := rfl

/-- The host's run takes one step and goes on from its next state. -/
theorem run_succ (M : Host.Core) (n : Nat) (s : M.State) :
    M.run (n + 1) s =
      match M.step s with
      | .next s' => M.run n s'
      | .fault r => .fault r
      | .refused r => .refused r := rfl

theorem core_run_of_next (n : Nat) (s t : State) (h : step s = .next t) :
    Sys2Proof.core.run (n + 1) s = Sys2Proof.core.run n t := by
  have h : Sys2Proof.core.step s = .next t := h
  rw [run_succ Sys2Proof.core n s, h]

theorem core_run_of_refused (n : Nat) (s : State) (r : Refusal) (h : step s = .refused r) :
    Sys2Proof.core.run (n + 1) s = .refused r := by
  have h : Sys2Proof.core.step s = .refused r := h
  rw [run_succ Sys2Proof.core n s, h]

end Sys2Proof.Machine
end

