-- ==== Sys2Proof/Laws/Memory.lean ====
section
/-! SUPPORT. The laws of a register array: read after write, the canonical form, and that equal contents in canonical form are equal data. -/

namespace Sys2Proof.Machine

@[simp] theorem Memory.read_nil (i : Nat) : Memory.read [] i = unlistedWord := rfl

theorem Memory.read_cons (c : Nat × Word16) (m : Memory) (i : Nat) :
    Memory.read (c :: m) i = if c.1 = i then c.2 else Memory.read m i := rfl

theorem Memory.read_erase (m : Memory) (i j : Nat) :
    (m.erase i).read j = if j = i then unlistedWord else m.read j := by
  induction m with
  | nil => simp [Memory.erase]
  | cons c m ih =>
    simp only [Memory.erase] at ih
    by_cases hc : c.1 = i <;> simp [Memory.erase, Memory.read_cons, hc, ih] <;>
      split <;> simp_all [eq_comm]

theorem Memory.read_place (m : Memory) (i j : Nat) (v : Word16) (h : ∀ c ∈ m, c.1 ≠ i) :
    (Memory.place i v m).read j = if j = i then v else m.read j := by
  induction m with
  | nil => simp [Memory.place, Memory.read_cons, eq_comm]
  | cons c m ih =>
    have hc : c.1 ≠ i := h c (by simp)
    have ih := ih fun d hd => h d (by simp [hd])
    simp only [Memory.place]
    split
    · simp [Memory.read_cons, eq_comm]
    · by_cases hj : j = i
      · subst hj
        simp [Memory.read_cons, ih, hc]
      · simp [Memory.read_cons, ih, hj]

theorem Memory.erase_ne (m : Memory) (i : Nat) : ∀ c ∈ m.erase i, c.1 ≠ i := by
  simp [Memory.erase]

/-- Everything a write does to what reads give: word `i` reads as `v`, every other word as before. -/
theorem Memory.read_write (m : Memory) (i j : Nat) (v : Word16) :
    (m.write i v).read j = if j = i then v else m.read j := by
  unfold Memory.write
  split
  · next h => rw [Memory.read_erase, h]
  · rw [Memory.read_place _ _ _ _ (Memory.erase_ne m i), Memory.read_erase]
    split <;> rfl

@[simp] theorem Memory.read_write_same (m : Memory) (i : Nat) (v : Word16) : (m.write i v).read i = v := by
  simp [Memory.read_write]

theorem Memory.read_write_other (m : Memory) (i j : Nat) (v : Word16) (h : j ≠ i) :
    (m.write i v).read j = m.read j := by
  simp [Memory.read_write, h]

/-! ### The canonical form -/

theorem Memory.wf_iff (m : Memory) :
    m.wf = true ↔ (m.map Prod.fst).Pairwise (· < ·) ∧ ∀ c ∈ m, c.1 < bankWords ∧ c.2 ≠ unlistedWord := by
  simp [Memory.wf]

@[simp] theorem Memory.wf_nil : Memory.wf [] = true := rfl

theorem Memory.wf_cons (c : Nat × Word16) (m : Memory) :
    Memory.wf (c :: m) = true ↔
      (∀ d ∈ m, c.1 < d.1) ∧ c.1 < bankWords ∧ c.2 ≠ unlistedWord ∧ Memory.wf m = true := by
  simp only [Memory.wf_iff, List.map_cons, List.pairwise_cons, List.mem_map, List.forall_mem_cons]
  constructor
  · rintro ⟨⟨h1, h2⟩, h3, h4⟩
    exact ⟨fun d hd => h1 _ ⟨d, hd, rfl⟩, h3.1, h3.2, h2, h4⟩
  · rintro ⟨h1, h2, h3, h4, h5⟩
    refine ⟨⟨?_, h4⟩, ⟨h2, h3⟩, h5⟩
    rintro _ ⟨d, hd, rfl⟩
    exact h1 d hd

theorem Memory.wf_erase (m : Memory) (i : Nat) (h : m.wf = true) : (m.erase i).wf = true := by
  induction m with
  | nil => rfl
  | cons c m ih =>
    obtain ⟨h1, h2, h3, h4⟩ := (Memory.wf_cons c m).1 h
    have ih := ih h4
    simp only [Memory.erase, List.filter_cons] at ih ⊢
    split
    · exact (Memory.wf_cons _ _).2 ⟨fun d hd => h1 d (List.mem_filter.1 hd).1, h2, h3, ih⟩
    · exact ih

theorem Memory.mem_place (m : Memory) (i : Nat) (v : Word16) (c : Nat × Word16) :
    c ∈ Memory.place i v m ↔ c = (i, v) ∨ c ∈ m := by
  induction m with
  | nil => simp [Memory.place]
  | cons d m ih =>
    simp only [Memory.place]
    split
    · simp
    · simp only [List.mem_cons, ih]; tauto

theorem Memory.wf_place (m : Memory) (i : Nat) (v : Word16) (h : m.wf = true) (hn : ∀ c ∈ m, c.1 ≠ i)
    (hi : i < bankWords) (hv : v ≠ unlistedWord) : (Memory.place i v m).wf = true := by
  induction m with
  | nil => exact (Memory.wf_cons _ _).2 ⟨by simp, hi, hv, rfl⟩
  | cons c m ih =>
    obtain ⟨h1, h2, h3, h4⟩ := (Memory.wf_cons c m).1 h
    have hc : c.1 ≠ i := hn c (by simp)
    simp only [Memory.place]
    split
    · next hlt =>
      refine (Memory.wf_cons _ _).2 ⟨fun d hd => ?_, hi, hv, h⟩
      rcases List.mem_cons.1 hd with rfl | hd
      · exact hlt
      · exact hlt.trans (h1 d hd)
    · next hge =>
      refine (Memory.wf_cons _ _).2 ⟨fun d hd => ?_, h2, h3, ih h4 fun d hd => hn d (by simp [hd])⟩
      rcases (Memory.mem_place _ _ _ _).1 hd with rfl | hd
      · show c.1 < i; omega
      · exact h1 d hd

/-- Every write inside the bank keeps the canonical form. -/
theorem Memory.wf_write (m : Memory) (i : Nat) (v : Word16) (h : m.wf = true) (hi : i < bankWords) :
    (m.write i v).wf = true := by
  unfold Memory.write
  split
  · exact Memory.wf_erase m i h
  · next hv => exact Memory.wf_place _ _ _ (Memory.wf_erase m i h) (Memory.erase_ne m i) hi hv

theorem Memory.read_below (m : Memory) (i : Nat) (h : ∀ d ∈ m, i < d.1) : m.read i = unlistedWord := by
  induction m with
  | nil => rfl
  | cons c m ih =>
    have hc : c.1 ≠ i := Nat.ne_of_gt (h c (by simp))
    rw [Memory.read_cons, if_neg hc]
    exact ih fun d hd => h d (by simp [hd])

/-- In canonical form a word past the bank is not listed. -/
theorem Memory.read_past (m : Memory) (i : Nat) (h : m.wf = true) (hi : bankWords ≤ i) : m.read i = unlistedWord := by
  induction m with
  | nil => rfl
  | cons c m ih =>
    obtain ⟨-, h2, -, h4⟩ := (Memory.wf_cons c m).1 h
    rw [Memory.read_cons, if_neg (by omega), ih h4]

/-- Two banks in canonical form that read alike are the same list. -/
theorem Memory.ext_of_read (a b : Memory) (ha : a.wf = true) (hb : b.wf = true) (h : ∀ i, a.read i = b.read i) :
    a = b := by
  induction a generalizing b with
  | nil =>
    cases b with
    | nil => rfl
    | cons d b =>
      obtain ⟨-, -, h3, -⟩ := (Memory.wf_cons d b).1 hb
      have := h d.1
      simp [Memory.read_cons] at this
      exact absurd this.symm h3
  | cons c a ih =>
    obtain ⟨a1, a2, a3, a4⟩ := (Memory.wf_cons c a).1 ha
    cases b with
    | nil =>
      have := h c.1
      simp [Memory.read_cons] at this
      exact absurd this a3
    | cons d b =>
      obtain ⟨b1, b2, b3, b4⟩ := (Memory.wf_cons d b).1 hb
      have hk : c.1 = d.1 := by
        rcases lt_trichotomy c.1 d.1 with hlt | heq | hgt
        · have := h c.1
          rw [Memory.read_cons, if_pos rfl, Memory.read_below (d :: b) c.1] at this
          · exact absurd this a3
          · intro e he
            rcases List.mem_cons.1 he with rfl | he
            · exact hlt
            · exact hlt.trans (b1 e he)
        · exact heq
        · have := h d.1
          rw [Memory.read_cons d b, if_pos rfl, Memory.read_below (c :: a) d.1] at this
          · exact absurd this.symm b3
          · intro e he
            rcases List.mem_cons.1 he with rfl | he
            · exact hgt
            · exact hgt.trans (a1 e he)
      have hv : c.2 = d.2 := by
        have := h c.1
        rwa [Memory.read_cons, if_pos rfl, Memory.read_cons, if_pos hk.symm] at this
      have ht : a = b := ih b a4 b4 fun i => by
        by_cases hi : c.1 = i
        · subst hi
          rw [Memory.read_below a _ a1, Memory.read_below b _ fun e he => hk ▸ b1 e he]
        · have := h i
          rwa [Memory.read_cons, if_neg hi, Memory.read_cons, if_neg (hk ▸ hi)] at this
      rw [ht, Prod.ext hk hv]

end Sys2Proof.Machine
end

