-- ==== Sys2Proof/Laws/PerInstr.lean ====
section
/-! SUPPORT. The family EncodeWellFormed, one lemma per operation: the encoder writes a defined operation code and 0 in every ignored bit (R51). -/

namespace Sys2Proof.Laws

def EncodeWellFormed.Statement (i : Instr) : Prop := wordWellFormed (encode i) = true

/-- A packed word passes both checks when its code has a mask and its fields are 0 outside it. -/
theorem wordWellFormed_pack (op : Byte) (a d : Word32) (mo : Byte) (ma md : Word32)
    (hm : usedMask op = some (~~~ packTransaction mo ma md)) (ho : op &&& mo = 0) (ha : a &&& ma = 0) (hd : d &&& md = 0) :
    wordWellFormed (packTransaction op a d) = true := by
  have h : (packTransaction op a d).extractLsb' 64 8 = op := opField_pack op a d
  simp [wordWellFormed, definedOperation, ignoredBitsZero, h, hm, pack_and, ho, ha, hd]
  decide

theorem value_and_high (v : Word16) : v.setWidth 32 &&& 0xFFFF0000#32 = 0 := by
  apply BitVec.eq_of_getLsbD_eq
  intro i hi
  by_cases h : i < 16
  · have : (0xFFFF0000#32).getLsbD i = false := by interval_cases i <;> rfl
    simp [this]
  · simp [BitVec.getLsbD_of_ge v i (by omega)]

theorem byte_and_high (v : Byte) : v.setWidth 32 &&& 0xFFFFFF00#32 = 0 := by
  apply BitVec.eq_of_getLsbD_eq
  intro i hi
  by_cases h : i < 8
  · have : (0xFFFFFF00#32).getLsbD i = false := by interval_cases i <;> rfl
    simp [this]
  · simp [BitVec.getLsbD_of_ge v i (by omega)]

theorem EncodeWellFormed.reset : EncodeWellFormed.Statement .reset := by
  unfold EncodeWellFormed.Statement; decide
theorem EncodeWellFormed.wr16 (addr : Word32) (value : Word16) : EncodeWellFormed.Statement (.wr16 addr value) :=
  wordWellFormed_pack _ _ _ 0 0 0xFFFF0000#32 (by decide) (by simp) (by simp) (value_and_high value)
theorem EncodeWellFormed.wr16a (addr : Word32) (value : Word16) : EncodeWellFormed.Statement (.wr16a addr value) :=
  wordWellFormed_pack _ _ _ 0 0 0xFFFF0000#32 (by decide) (by simp) (by simp) (value_and_high value)
theorem EncodeWellFormed.wr32a (addr value : Word32) : EncodeWellFormed.Statement (.wr32a addr value) :=
  wordWellFormed_pack _ _ _ 0 0 0 (by decide) (by simp) (by simp) (by simp)
theorem EncodeWellFormed.rdctl : EncodeWellFormed.Statement .rdctl := by
  unfold EncodeWellFormed.Statement; decide
theorem EncodeWellFormed.wrctl (byte : Byte) : EncodeWellFormed.Statement (.wrctl byte) :=
  wordWellFormed_pack _ _ _ 0 0xFFFFFFFF#32 0xFFFFFF00#32 (by decide) (by simp) (by simp) (byte_and_high byte)
theorem EncodeWellFormed.rbg : EncodeWellFormed.Statement .rbg := by
  unfold EncodeWellFormed.Statement; decide
theorem EncodeWellFormed.rfg : EncodeWellFormed.Statement .rfg := by
  unfold EncodeWellFormed.Statement; decide
theorem EncodeWellFormed.setoff1 (value : Word16) : EncodeWellFormed.Statement (.setoff1 value) :=
  wordWellFormed_pack _ _ _ 0 0xFFFFFFFF#32 0xFFFF0000#32 (by decide) (by simp) (by simp) (value_and_high value)
theorem EncodeWellFormed.setoff2 (value : Word16) : EncodeWellFormed.Statement (.setoff2 value) :=
  wordWellFormed_pack _ _ _ 0 0xFFFFFFFF#32 0xFFFF0000#32 (by decide) (by simp) (by simp) (value_and_high value)
theorem EncodeWellFormed.setoff3 (value : Word16) : EncodeWellFormed.Statement (.setoff3 value) :=
  wordWellFormed_pack _ _ _ 0 0xFFFFFFFF#32 0xFFFF0000#32 (by decide) (by simp) (by simp) (value_and_high value)
theorem EncodeWellFormed.setxoff (value : Word16) : EncodeWellFormed.Statement (.setxoff value) :=
  wordWellFormed_pack _ _ _ 0 0xFFFFFFFF#32 0xFFFF0000#32 (by decide) (by simp) (by simp) (value_and_high value)

end Sys2Proof.Laws
end

