-- ==== Sys2Proof/Tests/Slice0.lean ====
section
/-! SUPPORT. Tests of one step each, their expected values from the spec's vectors (95_test_vectors.md), and one witness for every statement that has hypotheses. -/

namespace Sys2Proof.Tests

-- One theorem at a time: with all at once the kernel's threads ask for more memory than the sandbox gives.
set_option Elab.async false

open Sys2Proof.Machine

/-! ### Small states -/

/-- The state after a RESET with this ROM and the default parameters. -/
def boot (rom : Array Byte) : State := resetState { State.reset with cfg := defaultConfig rom }

/-- A ROM of one byte. -/
def romOne : Array Byte := #[0xFF]

/-- ROM I96 of 95_test_vectors.md. -/
def romI96 : Array Byte := ⟨(List.range 96).map (BitVec.ofNat 8)⟩

/-- The table of ROM T1 as vector V1 of 95_test_vectors.md writes it out. -/
def codeT1 (row x : Nat) : Code :=
  match row with
  | 0 | 256 => 1
  | 1 | 257 => if 248 ≤ x ∧ x < 256 then 7 else 3
  | 2 | 258 => 2
  | 3 | 259 => if x = 248 ∨ x = 249 then 7 else [3, 3, 1, 1, 2, 2, 0, 0].getD (x % 8) 0
  | 512 => 3
  | _ => 0

/-- The state after a RESET with the default parameters, with the table of vector V1. -/
def bootT1 : State := { boot romOne with surf := tableOf 513 fun row => tableOf 512 fun x => codeT1 row x }

/-- A launched state whose table is `codeT1` and whose latched words are those of vector V20 with strip 1 solid as well on line 223. -/
def bothSolid : State := { bootT1 with ramL := [(0xDF, 0x0815), (0x1DF, 0x082A)], ctrl := 1 }

/-- A legal surface table: on-road everywhere but in row 512. -/
def flatSurf : SurfaceTable := tableOf 513 fun row => tableOf 512 fun _ => if row < 512 then 0 else 3

/-- A launched state with a legal table and strip 0 solid on line 0. -/
def flatState : State := { boot romOne with surf := flatSurf, ramL := [(0, 0x0815)] }

/-- What a test looks at in the state an operation leads to. -/
def seen {α : Type} (o : Host.Outcome State Fault Refusal) (f : State → α) : Option α :=
  match o with
  | .next t => some (f t)
  | .fault _ => none
  | .refused _ => none

/-! ### Transaction words, written out from R50 to R52 -/

theorem test_decode_reset : decode 0x00_00000000_00000000#72 = .ok .reset := by decide
theorem test_decode_wr16 : decode 0x01_00000010_ABCD1234#72 = .ok (.wr16 0x10 0x1234) := by decide
theorem test_decode_wr16a : decode 0x02_FFFFFFFE_00000001#72 = .ok (.wr16a 0xFFFFFFFE 0x0001) := by decide
theorem test_decode_wr32a : decode 0x03_00000FFE_12345678#72 = .ok (.wr32a 0x0FFE 0x12345678) := by decide
theorem test_decode_rdctl : decode 0x04_FFFFFFFF_FFFFFFFF#72 = .ok .rdctl := by decide
theorem test_decode_wrctl : decode 0x05_00000000_000001FE#72 = .ok (.wrctl 0xFE) := by decide
theorem test_decode_rbg : decode 0x06_00000000_00000000#72 = .ok .rbg := by decide
theorem test_decode_rfg : decode 0x07_00000000_00000000#72 = .ok .rfg := by decide
theorem test_decode_setoff1 : decode 0x08_00000000_00000400#72 = .ok (.setoff1 0x0400) := by decide
theorem test_decode_setoff2 : decode 0x09_00000000_00000420#72 = .ok (.setoff2 0x0420) := by decide
theorem test_decode_setoff3 : decode 0x0A_00000000_00000781#72 = .ok (.setoff3 0x0781) := by decide
theorem test_decode_setxoff : decode 0x0B_00000000_0000FFF8#72 = .ok (.setxoff 0xFFF8) := by decide
theorem test_decode_reserved : decode 0x0C_00000000_00000000#72 = .error (.reservedOperation 0x0C) := by decide
theorem test_table_word : decodeTableWord 72 0x050000000000000003 = some (.wrctl 3) := by decide

/-! ### WellFormed: an ill-formed word for each check, which the check refuses -/

theorem test_reserved_code_ill_formed : definedOperation 0x0C_00000000_00000000#72 = false := by decide
theorem test_ignored_bit_ill_formed : ignoredBitsZero 0x01_00000010_00011234#72 = false := by decide
theorem test_encoded_word_well_formed : wordWellFormed 0x01_00000010_00001234#72 = true := by decide

/-! ### Operations -/

/-- Vector V2 (ROM I96): the rows of its table, in order. -/
theorem test_reset_decodes_I96 :
    seen (exec .reset { State.reset with cfg := defaultConfig romI96 }) (fun t =>
      [surfAt t.surf 0 0, surfAt t.surf 0 7, surfAt t.surf 0 8, surfAt t.surf 1 0, surfAt t.surf 1 1, surfAt t.surf 2 0,
        surfAt t.surf 255 511, surfAt t.surf 256 0, surfAt t.surf 300 250, surfAt t.surf 511 255]) =
      some [0, 0, 0, 0, 1, 0, 3, 0, 2, 7] := by decide +kernel

/-- R112: RESET with an empty ROM has no meaning. -/
theorem test_reset_empty_rom : exec .reset { State.reset with cfg := defaultConfig #[] } = .refused .emptyRom := rfl

/-- Vector V5: 0xFFFFFFFF selects word 0x7FF. -/
theorem test_wr16_wraps : seen (exec (.wr16 0xFFFFFFFF 0x5555) (boot romOne)) (·.ramW) = some [(0x7FF, 0x5555)] := by
  decide +kernel

/-- Vector V5: an odd address writes the word below it, here over an older value. -/
theorem test_wr16_odd :
    seen (exec (.wr16 0x0001 0x2222) { boot romOne with ramW := [(0, 0x1111), (5, 1)] }) (·.ramW) =
      some [(0, 0x2222), (5, 1)] := by decide +kernel

/-- Vector V6. -/
theorem test_wr16a : seen (exec (.wr16a 0x0004 0xBEEF) (boot romOne)) (fun t => (t.ramW, t.resp)) =
    some ([(2, 0xBEEF)], 0x00000006) := by decide +kernel

/-- Vector V6: the cursor wraps at 2^32. -/
theorem test_wr16a_top : seen (exec (.wr16a 0xFFFFFFFE 0x0001) (boot romOne)) (fun t => (t.ramW, t.resp)) =
    some ([(0x7FF, 0x0001)], 0x00000000) := by decide +kernel

/-- Vector V7: the second half wraps to word 0. -/
theorem test_wr32a_wraps : seen (exec (.wr32a 0x0FFE 0x12345678) (boot romOne)) (fun t => (t.ramW, t.resp)) =
    some ([(0, 0x5678), (0x7FF, 0x1234)], 0x00001002) := by decide +kernel

/-- Vector V7: an odd cursor stays odd. -/
theorem test_wr32a_odd : seen (exec (.wr32a 0x0009 0xAAAABBBB) (boot romOne)) (fun t => (t.ramW, t.resp)) =
    some ([(4, 0xAAAA), (5, 0xBBBB)], 0x0000000D) := by decide +kernel

/-- Program P2, step 6: a true exchange and the sentinel. -/
theorem test_rdctl :
    seen (exec .rdctl { boot romOne with ramW := [(1, 0xAAAA)], ramL := [(0, 0x5678), (1, 0xBEEF), (0x7FF, 0x1234)] })
      (fun t => (t.ramW, t.ramL, t.resp)) =
      some ([(0, 0x5678), (1, 0xBEEF), (0x7FF, 0x1234)], [(1, 0xAAAA)], 0x0000FFFF) := by decide +kernel

/-- Vector V9: `CTRL = 0xFE` has mode 2 and direct addressing. -/
theorem test_wrctl : seen (exec (.wrctl 0xFE) (boot romOne)) (fun t => (t.ctrl, modeOf t.ctrl, direct t.ctrl)) =
    some (0xFE, .preferStrip1, true) := by decide +kernel

theorem test_setoff1 : seen (exec (.setoff1 0x0401) (boot romOne)) (fun t => (t.off1, t.off2, t.off3, t.xoff)) =
    some (0x0401, 0x0420, 0x0780, 0) := by decide +kernel
theorem test_setoff2 : seen (exec (.setoff2 0x0421) (boot romOne)) (fun t => (t.off1, t.off2, t.off3, t.xoff)) =
    some (0x0400, 0x0421, 0x0780, 0) := by decide +kernel
theorem test_setoff3 : seen (exec (.setoff3 0x0781) (boot romOne)) (fun t => (t.off1, t.off2, t.off3, t.xoff)) =
    some (0x0400, 0x0420, 0x0781, 0) := by decide +kernel
theorem test_setxoff : seen (exec (.setxoff 0xFFF8) (boot romOne)) (fun t => (t.off1, t.off2, t.off3, t.xoff)) =
    some (0x0400, 0x0420, 0x0780, 0xFFF8) := by decide +kernel

/-- Vectors V10 and V11: both strips solid in mode 2 shows strip 1's sky; OR keeps bit 0; line 1 is untouched. -/
theorem test_rbg_mode2 :
    seen (exec .rbg { boot romOne with ramL := [(0, 0x0895), (0x100, 0x082A)], ctrl := 2, off3 := 0x0780 })
      (fun t => [pixAt t.pix 0 0, pixAt t.pix 0 319, pixAt t.pix 1 0]) = some [some 0x07AA, some 0x07AA, none] := by
  decide +kernel

theorem test_rbg_or :
    seen (exec .rbg { boot romOne with ramL := [(0, 0x0895)], off3 := 0x0781 }) (fun t => pixAt t.pix 0 160) =
      some (some 0x0795) := by decide +kernel

/-- Vector V19: mode 2, both strips on screen. -/
theorem test_rfg_mode2 :
    seen (exec .rfg { bootT1 with
        ctrl := 2
        ramL := [(0, 0x0006), (0x100, 0x0001), (0x206, 0x06E8), (0x401, 0x07EC), (0x601, 0x0A60), (0x606, 0x0305)] })
      (fun t => [pixAt t.pix 0 0, pixAt t.pix 0 2, pixAt t.pix 0 8, pixAt t.pix 0 14, pixAt t.pix 0 16, pixAt t.pix 0 319,
        pixAt t.pix 1 0]) =
      some [some 0x040B, some 0x0402, some 0x0406, some 0x0401, some 0x043A, some 0x043A, some 0x0430] := by decide +kernel

/-- Vector V15: the cursor crosses 4095 to 0 between pixels 7 and 8. -/
theorem test_rfg_wraps :
    seen (exec .rfg { bootT1 with ramL := [(0, 0x0006), (0x206, 0xF5F0), (0x606, 0x0305)] })
      (fun t => [pixAt t.pix 0 7, pixAt t.pix 0 8, pixAt t.pix 0 10, pixAt t.pix 0 12, pixAt t.pix 0 14]) =
      some [some 0x0423, some 0x0423, some 0x0402, some 0x0405, some 0x0401] := by decide +kernel

/-- The word a host issues is what the next step performs. -/
theorem test_step_performs_issued_word :
    seen (step (State.reset.withFetchWord 72 0x050000000000000003)) (fun t => (t.ctrl, t.pending)) = some (3, []) := by
  decide +kernel

/-! ### Witnesses: for every statement that has hypotheses, concrete operands and states that meet them all -/

/-- EncodeOfDecodeClearsOnlyIgnoredBits: a word with ignored bits set. -/
theorem witness_decoded_word : decode 0x01_00000010_ABCD1234#72 = .ok (.wr16 0x10 0x1234) := by decide

/-- ReservedCodesAreRefusedAndOthersDecode: each clause at the edge of its range of codes. -/
theorem witness_operation_codes :
    (opField 0x0B_00000000_00000000#72).toNat ≤ 0x0B ∧ 0x0C ≤ (opField 0x0C_00000000_00000000#72).toNat ∧
    0x0C ≤ (opField 0xFF_FFFFFFFF_FFFFFFFF#72).toNat ∧
    (State.reset.withFetchWord 72 0x0C0000000000000000).pending = [0x0C_00000000_00000000#72] := by decide +kernel

/-- StepPerformsTheOldestIssuedOperation: a state with two operations issued. -/
theorem witness_issued_operation :
    let s := { State.reset with pending := [0x05_00000000_00000003#72, 0x06_00000000_00000000#72] }
    s.pending = 0x05_00000000_00000003#72 :: [0x06_00000000_00000000#72] ∧
    decode 0x05_00000000_00000003#72 = .ok (.wrctl 3) := by
  exact ⟨rfl, by decide⟩

/-- NothingIssuedNothingChanges and StepsRunTheIssuedSequence. -/
theorem witness_nothing_issued : State.reset.pending = [] := rfl

/-- EveryOperationCompletes and EverySequenceCompletes. -/
theorem witness_ready : Ready State.reset ∧ Ready (boot romOne) :=
  ⟨⟨rfl, by simp [State.reset, defaultConfig, launchRom]⟩, rfl, by decide⟩

/-- BeforeTheFirstResetOnlyResetRuns. -/
theorem witness_before_first_reset : ({ State.reset with launched := false } : State).launched = false ∧ Instr.rdctl ≠ .reset := by
  exact ⟨rfl, by decide⟩

/-- EachPieceChangesOnlyByItsOperations: an operation that answers a next state, in which pieces of state differ. -/
theorem witness_next_state :
    exec (.wrctl 0xFE) State.reset = .next (answer (setCtrl State.reset 0xFE) noResponse) ∧
    (setCtrl State.reset 0xFE).ctrl ≠ State.reset.ctrl := by
  exact ⟨rfl, by decide⟩

theorem flatSurf_at (row col : Nat) : surfAt flatSurf row col = if row < 512 ∧ col < 512 then 0 else 3 := by
  rw [surfAt_eq]
  by_cases hr : row < 513 <;> by_cases hc : col < 512 <;> by_cases h : row < 512 <;> simp [flatSurf, hr, hc, h]
  omega

theorem flatSurf_legal : SurfLegal flatSurf where
  codes row col := by rw [flatSurf_at]; unfold legalCode; split <;> simp
  stripe row col h := by rw [flatSurf_at] at h; split at h <;> simp at h
  zone row col hr _ hc := by rw [flatSurf_at, if_pos ⟨hr, by omega⟩]; decide
  offRoad col := by rw [flatSurf_at]; simp

/-- EveryStepKeepsTheInvariant: a state of the invariant with a swap issued, and its next state. -/
theorem witness_invariant :
    Inv (flatState.withFetchWord 72 0x040000000000000000) ∧
    step (flatState.withFetchWord 72 0x040000000000000000) = .next (answer (exchangeBanks flatState) 0xFFFF) :=
  ⟨⟨by decide +kernel, by decide +kernel, fun _ => flatSurf_legal⟩, rfl⟩

/-- ResetCompletes, ResetRefusesAnEmptyRom: a ROM of one byte, and none. -/
theorem witness_rom_sizes : (boot romOne).cfg.rom.size ≠ 0 ∧
    ({ State.reset with cfg := defaultConfig #[] } : State).cfg.rom.size = 0 := by decide

/-- ResetForgetsEverythingElse: two states that differ in what RESET forgets. -/
theorem witness_reset_forgets :
    let s := { boot romOne with ctrl := 3, ramW := [(7, 1)], xoff := 9, launched := false }
    s.cfg = (boot romOne).cfg ∧ s.pix = (boot romOne).pix ∧ s.pending = (boot romOne).pending :=
  ⟨rfl, rfl, rfl⟩

/-- TheLaunchStateIsAReset: a state that is not yet the launch state. -/
theorem witness_launch :
    let s := { State.reset with ctrl := 3, launched := false }
    s.cfg = defaultConfig launchRom ∧ s.pix = unwrittenBuffer ∧ s.pending = [] :=
  ⟨rfl, rfl, rfl⟩

/-- RowSourceOffset at the edges of its two halves (95_test_vectors.md V2 has `src` 0 for row 255 and 32 for rows 256 and 511). -/
theorem witness_row_source : [rowSource 96 0, rowSource 96 255, rowSource 96 256, rowSource 96 511] = [0, 0, 32, 32] := by decide

/-- DecodedBitsComeFromThePlanes and StripeZoneMarking: columns 247, 248, 255, 256 of row 511, with vector V4's ROM, and the last column. -/
theorem witness_stripe_zone :
    [247, 248, 255, 256, 511].map (surfAt (decodeRom romOne) 511) = [3, 7, 7, 3, 3] ∧ planeCode romOne 511 248 = 3 := by
  decide +kernel

/-- SyntheticRowIsOffRoad at the last column of vector V4's table. -/
theorem witness_synthetic_row : surfAt (decodeRom romOne) 512 511 = 3 := by decide +kernel

/-- HalfSizeRomRepeatsItsBank and ExcessRomBytesAreNeverRead: ROMs of those sizes, the longer two differing in length alone. -/
theorem witness_rom_lengths :
    (Array.replicate 32768 (0 : Byte)).size = 32768 ∧ 65536 ≤ (Array.replicate 65536 (0 : Byte)).size ∧
    65536 ≤ (Array.replicate 65537 (0 : Byte)).size ∧
    ∀ addr, addr < 65536 → (Array.replicate 65536 (0 : Byte)).getD addr 0 = (Array.replicate 65537 (0 : Byte)).getD addr 0 := by
  refine ⟨Array.size_replicate, ?_, ?_, fun addr h => ?_⟩
  · rw [Array.size_replicate]
  · rw [Array.size_replicate]; omega
  · rw [Array.getD_eq_getD_getElem?, Array.getD_eq_getD_getElem?, Array.getElem?_replicate, Array.getElem?_replicate,
      if_pos h, if_pos (by omega)]

/-- WindowIndexIsBits11To1: two addresses of one word, and the edges of the window. -/
theorem witness_window_index :
    (0x00000001 : Word32).extractLsb' 1 11 = (0xFFFFF000 : Word32).extractLsb' 1 11 ∧
    [0, 1, 2, 0xFFF, 0x1000].map (fun a => windowIndex (BitVec.ofNat 32 a)) = [0, 0, 1, 2047, 0] := by decide

/-- Every statement whose hypothesis is that a RESET has been performed: Wr16Completes, Wr16aCompletes, Wr32aCompletes, DwordWriteIsTwoWordWrites, RdctlExchangesTheBanks, RdctlAnswersTheSentinel (with `s' = s`), SwapDeliversTheWrites, WrctlCompletes, SettersComplete, RbgCompletes, RfgCompletes, AFrameWritesEveryPixel, and the last clauses of the two 'depends on its inputs alone' statements. -/
theorem witness_launched : State.reset.launched = true ∧ (boot romOne).launched = true := ⟨rfl, rfl⟩

/-- RdctlAnswersTheSentinel: two states with different control bytes. -/
theorem witness_sentinel :
    let s := { boot romOne with ctrl := 3 }
    s.launched = true ∧ (boot romOne).launched = true ∧ s.cfg = (boot romOne).cfg := ⟨rfl, rfl, rfl⟩

/-- CursorWritesConsecutiveWords: as many values as the bank has words. -/
theorem witness_cursor : (List.replicate 2048 (0x1234 : Word16)).length ≤ 2048 ∧ State.reset.launched = true :=
  ⟨by rw [List.length_replicate], rfl⟩

/-- SwapIsTheSlotBySlotLoop: two banks in canonical form that differ. -/
theorem witness_swap :
    let s := { boot romOne with ramW := [(1, 0xAAAA)], ramL := [(0, 0x5678), (0x7FF, 0x1234)] }
    s.launched = true ∧ s.ramW.wf = true ∧ s.ramL.wf = true := by decide +kernel

/-- AWordNotRewrittenReturnsTwoSwapsLater: two addresses of different words. -/
theorem witness_two_words : State.reset.launched = true ∧ windowIndex 0 ≠ windowIndex 2 := ⟨rfl, by decide⟩

/-- BackgroundDependsOnItsInputsAlone, first clause: two states that differ in everything RBG does not read; word 0xE0 is the first such word. -/
theorem witness_background_inputs :
    let s := { boot romOne with ramL := [(0, 0x0815)] }
    let s' := { s with ramL := [(0, 0x0815), (0xE0, 0x0815)], ramW := [(0, 1)], ctrl := 0xFC, off1 := 1, off2 := 2, xoff := 3 }
    s.launched = true ∧ s'.launched = true ∧
    (∀ i, i < 0xE0 → s.ramL.read i = s'.ramL.read i ∧ s.ramL.read (0x100 + i) = s'.ramL.read (0x100 + i)) ∧
    s.ctrl.extractLsb' 0 2 = s'.ctrl.extractLsb' 0 2 ∧ s.off3 = s'.off3 ∧ s.pix = s'.pix := by
  exact ⟨rfl, rfl, by decide +kernel, by decide +kernel, rfl, rfl⟩

/-- BackgroundDependsOnItsInputsAlone, second clause: no control word but others are set. -/
theorem witness_no_control_words :
    let s := { boot romOne with ramL := [(0xE0, 0x0815)] }
    s.launched = true ∧ ∀ i, i < 0xE0 → s.ramL.read i = 0 ∧ s.ramL.read (0x100 + i) = 0 := by
  exact ⟨rfl, by decide +kernel⟩

/-- LineSkipAndSurfaceRow and BothSolidLinesBelongToTheBackground, on the last line. -/
theorem witness_both_solid :
    bothSolid.launched = true ∧ ctrlWord bothSolid .zero 223 &&& 0x800 ≠ 0 ∧ ctrlWord bothSolid .one 223 &&& 0x800 ≠ 0 ∧
    solid (ctrlWord bothSolid .zero 223) = true ∧ solid (ctrlWord bothSolid .one 223) = true := by decide +kernel

/-- LineSkipAndSurfaceRow: the row of a word that is not solid (vector V14: row 259) and of one that is. -/
theorem witness_surface_row : [surfaceRow .one 0x0006, surfaceRow .zero 0x07FF, surfaceRow .one 0x0815] = [259, 255, 512] := by
  decide

/-- TableIndexStaysInItsTable: default parameters and the last line, direct and indirect (0x1FF is the largest index). -/
theorem witness_table_index :
    let s := { boot romOne with ramL := [(0xDF, 0x01FF)] }
    s.cfg = defaultConfig romOne ∧ tableIndex s .zero 223 = 511 ∧ tableIndex { s with ctrl := 4 } .zero 223 = 223 := by
  exact ⟨rfl, by decide +kernel, by decide +kernel⟩

/-- PixelCodeLookup: the two clauses of the range test at their edges, and a solid strip of a legal table. -/
theorem witness_code_lookup :
    512 ≤ (512 : Column).toNat ∧ (511 : Column).toNat < 512 ∧
    codeAt flatState.surf 0 512 = 3 ∧ codeAt flatState.surf 0 511 = 0 ∧
    SurfLegal flatState.surf ∧ solid (ctrlWord flatState .zero 0) = true := by
  exact ⟨by decide, by decide, by decide +kernel, by decide +kernel, flatSurf_legal, by decide +kernel⟩

/-- CursorsAdvanceInLockstepModulo4096: the last pixel, with a cursor that wraps on its way. -/
theorem witness_cursor_wraps : (319 : Nat) < 320 ∧ ((0xFF8 : Column).toNat + 319) % 4096 = 311 := by decide

/-- PixelColourByMode: codes 7 and 7, where the two default rows differ. -/
theorem witness_priority :
    legalCode 7 ∧ strip1Wins (defaultConfig romOne).prioMode1 7 7 = false ∧
    strip1Wins (defaultConfig romOne).prioMode2 7 7 = true := by
  exact ⟨by simp [legalCode], by decide, by decide⟩

/-- OneStripModesIgnoreTheOtherStrip, mode 0 (vector V17): strip 1 is solid in one state, not in the other, and its colour bits differ. -/
theorem witness_mode0 :
    let s := { bootT1 with ramL := [(0, 0x0006), (0x206, 0x06E8), (0x606, 0x0305)] }
    let s' := { s with ramL := [(0, 0x0006), (0x100, 0x0801), (0x206, 0x06E8), (0x606, 0x03F5)], off3 := 0, ramW := [(3, 3)] }
    s.launched = true ∧ s'.launched = true ∧ modeOf s.ctrl = onlyMode .zero ∧ modeOf s'.ctrl = onlyMode .zero ∧
    s.cfg = s'.cfg ∧ s.off1 = s'.off1 ∧ s.off2 = s'.off2 ∧ s.xoff = s'.xoff ∧ SameStripInputs .zero 0 s s' ∧
    (∀ x, pixAt s.pix 0 x = pixAt s'.pix 0 x) := by
  exact ⟨rfl, rfl, by decide +kernel, by decide +kernel, rfl, rfl, rfl, rfl,
    ⟨by decide +kernel, by decide +kernel, by decide +kernel, by decide +kernel, fun _ _ _ => rfl⟩, fun _ => rfl⟩

/-- The same for mode 3, on the last line. -/
theorem witness_mode3 :
    let s := { bootT1 with ctrl := 3, ramL := [(0x1DF, 0x0006), (0x406, 0x06E8), (0x606, 0x0A60)] }
    let s' := { s with ramL := [(0xDF, 0x0801), (0x1DF, 0x0006), (0x406, 0x06E8), (0x606, 0x0A6F)], ctrl := 0xFB }
    s.launched = true ∧ s'.launched = true ∧ modeOf s.ctrl = onlyMode .one ∧ modeOf s'.ctrl = onlyMode .one ∧
    s.cfg = s'.cfg ∧ s.off1 = s'.off1 ∧ s.off2 = s'.off2 ∧ s.xoff = s'.xoff ∧ SameStripInputs .one 223 s s' ∧
    (∀ x, pixAt s.pix 223 x = pixAt s'.pix 223 x) := by
  exact ⟨rfl, rfl, by decide +kernel, by decide +kernel, rfl, rfl, rfl, rfl,
    ⟨by decide +kernel, by decide +kernel, by decide +kernel, by decide +kernel, fun _ _ _ => rfl⟩, fun _ => rfl⟩

/-- ForegroundDependsOnItsInputsAlone: two states that differ in everything RFG does not read. -/
theorem witness_foreground_inputs :
    let s := { bootT1 with ramL := [(0, 0x0006)] }
    let s' := { s with ramW := [(0, 1)], ctrl := 0xF8, off3 := 1, xoff := 0x1000 }
    s.launched = true ∧ s'.launched = true ∧ s.cfg = s'.cfg ∧ (∀ i, i < 2048 → s.ramL.read i = s'.ramL.read i) ∧
    s.ctrl.extractLsb' 0 3 = s'.ctrl.extractLsb' 0 3 ∧ s.off1 = s'.off1 ∧ s.off2 = s'.off2 ∧
    s.xoff.extractLsb' 0 12 = s'.xoff.extractLsb' 0 12 ∧ s.surf = s'.surf ∧ s.pix = s'.pix := by
  exact ⟨rfl, rfl, rfl, fun _ _ => rfl, by decide +kernel, rfl, rfl, by decide +kernel, rfl, rfl⟩

/-- ForegroundPaletteRange: a legal table, the reset offsets, the default selectors, and a line that is drawn. -/
theorem witness_palette_range :
    flatState.launched = true ∧ SurfLegal flatState.surf ∧ flatState.cfg.strip0 = defaultStrip0 ∧
    flatState.cfg.strip1 = defaultStrip1 ∧ flatState.off1 = 0x0400 ∧ flatState.off2 = 0x0420 ∧ drawn flatState 223 = true := by
  exact ⟨rfl, flatSurf_legal, rfl, rfl, rfl, rfl, by decide +kernel⟩

/-- ForegroundOverwritesOneSolidStrip: vector V20 in mode 1, and its data in mode 2. -/
theorem witness_one_solid :
    let s := { bootT1 with ctrl := 1, ramL := [(0, 0x0815), (0x100, 0x0006), (0x406, 0x06E8), (0x606, 0x0A60)] }
    s.launched = true ∧ modeOf s.ctrl = .preferStrip0 ∧ modeOf 2 = .preferStrip1 ∧
    solid (ctrlWord s .zero 0) ≠ solid (ctrlWord s .one 0) := by decide +kernel

/-- AFrameWithoutASwapRepeats: one write of each form, and no write at all. -/
theorem witness_window_writes :
    State.reset.launched = true ∧ (∀ i ∈ ([] : List Instr), writesWindow i = true) ∧
    ∀ i ∈ [Instr.wr16 0x0000 0x0815, .wr16a 0x1002 0xBEEF, .wr32a 0x0FFE 0x12345678], writesWindow i = true := by
  exact ⟨rfl, by decide, by decide⟩

/-- RenderBeforeAnySwapIsFlat: control bytes on both sides of the clause's test. -/
theorem witness_before_any_swap :
    (boot romOne).cfg = defaultConfig romOne ∧ romOne.size ≠ 0 ∧
    (∀ i ∈ [Instr.wr16 0x0000 0x0815, .wr32a 0x0FFE 0x12345678], writesWindow i = true) ∧ (5 : Byte).toNat % 4 ≤ 1 ∧ ¬ (2 : Byte).toNat % 4 ≤ 1 := by
  exact ⟨rfl, by decide, by decide, by decide, by decide⟩

end Sys2Proof.Tests
end

/-! PROOFS. The statements of 00_scope.md, section 5: a step performs the oldest issued operation (R7), and so the steps of an issued sequence are its operations in order (R44).

An operation neither reads nor writes the issued words. So performing it commutes with issuing further words (`exec_issueBefore`), and a run of the machine simulates `runOps` one operation per step. -/

namespace Sys2Proof

/-! ### The encoder's words decode to their operations -/

@[simp] theorem valueField_pack_value (op : Byte) (a : Word32) (v : Word16) :
    valueField (packTransaction op a (v.setWidth 32)) = v := by
  simp [valueField, BitVec.extractLsb'_setWidth_of_le]

@[simp] theorem byteField_pack_byte (op : Byte) (a : Word32) (b : Byte) :
    byteField (packTransaction op a (b.setWidth 32)) = b := by
  simp [byteField, BitVec.extractLsb'_setWidth_of_le]

@[simp] theorem decode_encode (i : Instr) : decode (encode i) = .ok i := by
  cases i <;> simp [encode, decode]

end Sys2Proof

namespace Sys2Proof.Machine

/-! ### One step -/

theorem step_of_nothing_issued (s : State) (hp : s.pending = []) : step s = .next s :=
  (step_next_iff s s).2 (.inl ⟨hp, rfl⟩)

theorem step_of_issued (s : State) (w : Transaction) (rest : List Transaction) (i : Instr)
    (hp : s.pending = w :: rest) (hd : decode w = .ok i) : step s = exec i { s with pending := rest } := by
  simp [step, takeIssued_cons s w rest hp, hd]

theorem step_issueNext_encode (s : State) (i : Instr) : step (issueNext s (encode i)) = exec i s :=
  step_of_issued (issueNext s (encode i)) (encode i) s.pending i rfl (decode_encode i)

/-! ### Words issued before those of a state -/

/-- The state in which the words `ws`, in their order, come before the words already issued: `issueNext` for a list. -/
def issueBefore (ws : List Transaction) (s : State) : State := { s with pending := ws ++ s.pending }

theorem issueBefore_cons (w : Transaction) (ws : List Transaction) (s : State) :
    issueBefore (w :: ws) s = issueNext (issueBefore ws s) w := rfl

/-- With nothing issued before, the words are all that is issued. -/
theorem issueBefore_of_nothing_issued (ws : List Transaction) (s : State) (hp : s.pending = []) :
    issueBefore ws s = { s with pending := ws } := by
  simp [issueBefore, hp]

/-! ### An operation neither reads nor writes the issued words -/

/-- The outcome with `f` applied to its next state, if it has one. -/
def mapNext (f : State → State) : Host.Outcome State Fault Refusal → Host.Outcome State Fault Refusal
  | .next s => .next (f s)
  | .fault r => .fault r
  | .refused r => .refused r

theorem whenLaunched_issueBefore (ws : List Transaction) (s t : State) :
    whenLaunched (issueBefore ws s) (issueBefore ws t) = mapNext (issueBefore ws) (whenLaunched s t) := by
  cases h : s.launched <;> simp [whenLaunched, issueBefore, mapNext, h]

theorem execReset_issueBefore (ws : List Transaction) (s : State) :
    execReset (issueBefore ws s) = mapNext (issueBefore ws) (execReset s) := by
  cases h : s.cfg.rom.toList.isEmpty <;> simp [execReset, resetState, issueBefore, mapNext, h]

/-- Every operation but RESET is the launch guard around its effect (R111). -/
theorem exec_of_ne_reset (i : Instr) (s : State) (hi : i ≠ .reset) : exec i s = whenLaunched s (effect i s) := by
  cases i with
  | reset => exact absurd rfl hi
  | _ => rfl

/-- No effect looks at the issued words or changes them. -/
theorem effect_issueBefore (ws : List Transaction) (i : Instr) (s : State) :
    effect i (issueBefore ws s) = issueBefore ws (effect i s) := by
  cases i <;> rfl

theorem exec_issueBefore (ws : List Transaction) (i : Instr) (s : State) :
    exec i (issueBefore ws s) = mapNext (issueBefore ws) (exec i s) := by
  by_cases hi : i = .reset
  · subst hi
    exact execReset_issueBefore ws s
  · rw [exec_of_ne_reset i _ hi, exec_of_ne_reset i _ hi, effect_issueBefore, whenLaunched_issueBefore]

/-! ### A run of the machine is the sequence of its operations -/

/-- One step of the run performs the first operation and leaves the words behind it issued. -/
theorem step_issueBefore_encode (i : Instr) (ws : List Transaction) (s : State) :
    step (issueBefore (encode i :: ws) s) = mapNext (issueBefore ws) (exec i s) := by
  rw [issueBefore_cons, step_issueNext_encode, exec_issueBefore]

/-- The simulation, for a state with any words issued: they stay behind those of the sequence and are still issued at its end. -/
theorem core_run_issueBefore (is : List Instr) (s : State) :
    Sys2Proof.core.run is.length (issueBefore (is.map encode) s) = runOps is s := by
  induction is generalizing s with
  | nil => rfl
  | cons i is ih =>
    have hstep := step_issueBefore_encode i (is.map encode) s
    simp only [List.length_cons, List.map_cons, runOps]
    cases he : exec i s with
    | next t =>
      rw [he] at hstep
      rw [core_run_of_next _ _ _ hstep]
      exact ih t
    | fault r => cases r
    | refused r =>
      rw [he] at hstep
      exact core_run_of_refused _ _ _ hstep

/-! ### The obligations -/

/-- Settles O7, by the simulation `core_run_issueBefore`, an induction on the sequence. -/
theorem stepsRunTheIssuedSequence : Obligations.StepsRunTheIssuedSequence := by
  intro is s hp
  rw [← issueBefore_of_nothing_issued _ s hp]
  exact core_run_issueBefore is s

/-- Settles O5. -/
theorem stepPerformsTheOldestIssuedOperation : Obligations.StepPerformsTheOldestIssuedOperation :=
  step_of_issued

/-- Settles O6. -/
theorem nothingIssuedNothingChanges : Obligations.NothingIssuedNothingChanges :=
  step_of_nothing_issued

end Sys2Proof.Machine

/-! PROOFS. The statements of 10_state.md: the surface table and the banks (R11 to R14), the sky colours (R18) and the state after RESET (R28).

Legality of a decoded table comes down to one entry: the planes give one of the codes 0 to 3 (`planeCode_cases`), and stripe marking turns 3 into 7 in the stripe zone. The invariant then rests on two operations: RESET makes a legal table (`inv_resetState`), and a host write lands inside its bank (`inv_hostWrite16`). -/

namespace Sys2Proof.Machine

/-! ### One decoded code -/

theorem twoPlaneBits_cases (a b : Bool) :
    let code : Code := (BitVec.ofBool a).setWidth 3 ||| ((BitVec.ofBool b).setWidth 3 <<< 1)
    code = 0 ∨ code = 1 ∨ code = 2 ∨ code = 3 := by
  cases a <;> cases b <;> decide

/-- Two plane bits make one of four codes; bit 2 is left to stripe marking (R67). -/
theorem planeCode_cases (rom : Array Byte) (y x : Nat) :
    planeCode rom y x = 0 ∨ planeCode rom y x = 1 ∨ planeCode rom y x = 2 ∨ planeCode rom y x = 3 :=
  twoPlaneBits_cases _ _

theorem markStripe_of_ne_three (x : Nat) (c : Code) (hc : c ≠ 3) : markStripe x c = c :=
  if_neg fun h => hc h.2.2

theorem markStripe_three (x : Nat) : markStripe x 3 = if 248 ≤ x ∧ x < 256 then 7 else 3 := by
  simp [markStripe]

/-- An entry of rows 0 to 511 is the marked plane code; any other read gives the off-road code (R65, R69). -/
theorem surfAt_decodeRom_eq_markStripe (rom : Array Byte) (row col : Nat) :
    surfAt (decodeRom rom) row col =
      if row < 512 ∧ col < 512 then markStripe col (planeCode rom row col) else 3 := by
  rw [surfAt_decodeRom]
  unfold decodedCode
  by_cases hin : row < 512 ∧ col < 512
  · rw [if_pos (by omega), if_pos hin.1, if_pos hin]
  · rw [if_neg hin]
    by_cases hrow : row < 512
    · rw [if_neg (by omega)]
    · simp [hrow]

/-- What a read of a decoded table can give, and where: 0, 1 or 2 from the planes, 7 in the stripe zone, 3 elsewhere (R11, R68, R69). -/
theorem surfAt_decodeRom_cases (rom : Array Byte) (row col : Nat) :
    let code := surfAt (decodeRom rom) row col
    (row < 512 ∧ (code = 0 ∨ code = 1 ∨ code = 2)) ∨
      (code = 7 ∧ row < 512 ∧ 248 ≤ col ∧ col < 256) ∨
      (code = 3 ∧ ¬ (row < 512 ∧ 248 ≤ col ∧ col < 256)) := by
  rw [surfAt_decodeRom_eq_markStripe]
  by_cases hin : row < 512 ∧ col < 512
  · rw [if_pos hin]
    by_cases h3 : planeCode rom row col = 3
    · rw [h3, markStripe_three]
      by_cases hz : 248 ≤ col ∧ col < 256
      · exact .inr (.inl ⟨if_pos hz, hin.1, hz⟩)
      · exact .inr (.inr ⟨if_neg hz, fun h => hz h.2⟩)
    · rw [markStripe_of_ne_three col _ h3]
      have hplane := planeCode_cases rom row col
      exact .inl ⟨hin.1, by tauto⟩
  · rw [if_neg hin]
    exact .inr (.inr ⟨rfl, by omega⟩)

/-! ### The decoded table -/

theorem legalCode_surfAt_decodeRom (rom : Array Byte) (row col : Nat) :
    legalCode (surfAt (decodeRom rom) row col) := by
  unfold legalCode
  have := surfAt_decodeRom_cases rom row col
  tauto

/-- Code 7 stands in the stripe zone only (R68). -/
theorem stripeZone_of_surfAt_decodeRom_eq_seven (rom : Array Byte) (row col : Nat)
    (h7 : surfAt (decodeRom rom) row col = 7) : row < 512 ∧ 248 ≤ col ∧ col < 256 := by
  have hcases := surfAt_decodeRom_cases rom row col
  simpa [h7] using hcases

/-- Stripe marking leaves no code 3 in the stripe zone (R68). -/
theorem surfAt_decodeRom_ne_three_of_stripeZone (rom : Array Byte) (row col : Nat)
    (hz : row < 512 ∧ 248 ≤ col ∧ col < 256) : surfAt (decodeRom rom) row col ≠ 3 := by
  intro h3
  have hcases := surfAt_decodeRom_cases rom row col
  simp [h3, hz] at hcases

theorem surfAt_decodeRom_offRoad (rom : Array Byte) (col : Nat) : surfAt (decodeRom rom) 512 col = 3 := by
  rw [surfAt_decodeRom_eq_markStripe, if_neg (by omega)]

theorem surfLegal_decodeRom (rom : Array Byte) : SurfLegal (decodeRom rom) where
  codes := legalCode_surfAt_decodeRom rom
  stripe := stripeZone_of_surfAt_decodeRom_eq_seven rom
  zone row col hrow hlo hhi := surfAt_decodeRom_ne_three_of_stripeZone rom row col ⟨hrow, hlo, hhi⟩
  offRoad := surfAt_decodeRom_offRoad rom

/-! ### The invariant, one state operation at a time -/

theorem windowIndex_lt (addr : Word32) : windowIndex addr < bankWords :=
  Nat.mod_lt _ (by decide)

/-- A state with the banks, the surface table and the launch premise of a state of the invariant has it too: no other field matters. -/
theorem inv_of_same_fields (s t : State) (hs : Inv s) (hW : t.ramW = s.ramW) (hL : t.ramL = s.ramL)
    (hsurf : t.surf = s.surf) (hlaunched : t.launched = s.launched) : Inv t where
  writable := hW ▸ hs.writable
  latched := hL ▸ hs.latched
  surface h := hsurf ▸ hs.surface (hlaunched ▸ h)

theorem inv_answer (s : State) (r : Word32) (hs : Inv s) : Inv (answer s r) :=
  inv_of_same_fields s _ hs rfl rfl rfl rfl

theorem inv_hostWrite16 (s : State) (addr : Word32) (v : Word16) (hs : Inv s) : Inv (hostWrite16 s addr v) where
  writable := Memory.wf_write s.ramW (windowIndex addr) v hs.writable (windowIndex_lt addr)
  latched := hs.latched
  surface := hs.surface

theorem inv_hostWrite32 (s : State) (addr v : Word32) (hs : Inv s) : Inv (hostWrite32 s addr v) :=
  inv_hostWrite16 _ _ _ (inv_hostWrite16 _ _ _ hs)

theorem inv_exchangeBanks (s : State) (hs : Inv s) : Inv (exchangeBanks s) where
  writable := hs.latched
  latched := hs.writable
  surface := hs.surface

/-- RESET establishes the invariant from any state. -/
theorem inv_resetState (s : State) : Inv (resetState s) where
  writable := Memory.wf_nil
  latched := Memory.wf_nil
  surface _ := surfLegal_decodeRom s.cfg.rom

/-! ### The invariant, one operation and one step -/

theorem inv_effect (i : Instr) (s : State) (hs : Inv s) : Inv (effect i s) := by
  cases i with
  | reset => exact inv_resetState s
  | wr16 addr value => exact inv_answer _ _ (inv_hostWrite16 s addr value hs)
  | wr16a addr value => exact inv_answer _ _ (inv_hostWrite16 s addr value hs)
  | wr32a addr value => exact inv_answer _ _ (inv_hostWrite32 s addr value hs)
  | rdctl => exact inv_answer _ _ (inv_exchangeBanks s hs)
  | _ => exact inv_of_same_fields s _ hs rfl rfl rfl rfl

theorem inv_exec (i : Instr) (s t : State) (hs : Inv s) (he : exec i s = .next t) : Inv t := by
  obtain ⟨-, rfl⟩ := (exec_next_iff i s t).1 he
  exact inv_effect i s hs

theorem inv_step (s t : State) (hs : Inv s) (hstep : step s = .next t) : Inv t := by
  rcases (step_next_iff s t).1 hstep with ⟨-, rfl⟩ | ⟨w, rest, i, -, -, he⟩
  · exact hs
  · exact inv_exec i { s with pending := rest } t (inv_of_same_fields s _ hs rfl rfl rfl rfl) he

/-! ### The launch state, and operations after it -/

/-- RESET leaves of a state its parameters, its buffer and what is issued; with those of the launch state it makes the launch state (R28, R110). -/
theorem resetState_eq_reset (s : State) (hcfg : s.cfg = defaultConfig launchRom) (hpix : s.pix = unwrittenBuffer)
    (hpending : s.pending = []) : resetState s = State.reset := by
  simp only [resetState, hcfg, hpix, hpending]
  rfl

theorem exec_reset_of_rom (s : State) (hrom : s.cfg.rom.toList.isEmpty = false) :
    exec .reset s = .next (resetState s) :=
  (exec_next_iff .reset s _).2 ⟨by rwa [if_pos rfl], rfl⟩

theorem exec_of_launched (i : Instr) (s : State) (hi : i ≠ .reset) (hs : s.launched = true) :
    exec i s = .next (effect i s) :=
  (exec_next_iff i s _).2 ⟨by rwa [if_neg hi], rfl⟩

/-! ### The sky colours -/

theorem xor_eq_or_of_and_eq_zero {w : Nat} (a b : BitVec w) (h : a &&& b = 0#w) : a ^^^ b = a ||| b := by
  apply BitVec.eq_of_getLsbD_eq
  intro i _
  have hi : (a.getLsbD i && b.getLsbD i) = false := by simpa using congrArg (·.getLsbD i) h
  cases ha : a.getLsbD i <;> cases hb : b.getLsbD i <;> simp_all

/-- The sky offset of decision D14 has zeros where the seven colour bits stand (R61). -/
theorem off3_and_colour (c : BitVec 7) : (0x0780 : Word16) &&& c.setWidth 16 = 0#16 := by
  apply BitVec.eq_of_getLsbD_eq
  intro i _
  by_cases h : i < 7
  · have hzero : (0x0780 : Word16).getLsbD i = false := by interval_cases i <;> rfl
    rw [BitVec.getLsbD_and, hzero, Bool.false_and, BitVec.getLsbD_zero]
  · simp [BitVec.getLsbD_of_ge c i (by omega)]

theorem skyColour_eq_or (off3 : Word16) (c : BitVec 7) : skyColour off3 c = off3 ||| c.setWidth 16 :=
  BitVec.or_comm _ _

/-! ### The obligations -/

/-- Settles O12, from `inv_step`. -/
theorem everyStepKeepsTheInvariant : Obligations.EveryStepKeepsTheInvariant :=
  inv_step

/-- Settles O22, entry by entry from `surfAt_decodeRom_cases`. -/
theorem decodedTableIsLegal : Obligations.DecodedTableIsLegal :=
  surfLegal_decodeRom

/-- Settles O13: the launch state is a reset state. -/
theorem theInvariantHoldsAtReset : Obligations.TheInvariantHoldsAtReset := by
  unfold Obligations.TheInvariantHoldsAtReset
  rw [← resetState_eq_reset State.reset rfl rfl rfl]
  exact inv_resetState State.reset

/-- Settles O17. -/
theorem theLaunchStateIsAReset : Obligations.TheLaunchStateIsAReset := by
  refine ⟨fun s hcfg hpix hpending => ?_, fun _ => ⟨rfl, rfl⟩, rfl, rfl, rfl, rfl, rfl, pixAt_unwrittenBuffer⟩
  have hrom : s.cfg.rom.toList.isEmpty = false := by rw [hcfg]; rfl
  rw [exec_reset_of_rom s hrom, resetState_eq_reset s hcfg hpix hpending]

/-- Settles O31. -/
theorem rdctlExchangesTheBanks : Obligations.RdctlExchangesTheBanks := by
  intro s hs
  exact ⟨effect .rdctl s, exec_of_launched .rdctl s (by simp) hs, fun _ => ⟨rfl, rfl⟩, rfl⟩

/-- Settles O52: the bits of the offset and of the colour are disjoint (`off3_and_colour`), so OR, XOR and addition agree. -/
theorem skyPaletteRange : Obligations.SkyPaletteRange := by
  intro c
  have hdisjoint := off3_and_colour c
  constructor
  · rw [skyColour_eq_or, xor_eq_or_of_and_eq_zero _ _ hdisjoint]
  · calc (skyColour 0x0780 c).toNat
        = ((0x0780 : Word16) + c.setWidth 16).toNat := by
          rw [skyColour_eq_or, BitVec.add_eq_or_of_and_eq_zero _ _ hdisjoint]
      _ = (0x0780 : Word16).toNat + (c.setWidth 16).toNat := BitVec.toNat_add_of_and_eq_zero hdisjoint
      _ = 0x0780 + c.toNat := by rw [BitVec.toNat_setWidth_of_le (by decide)]; rfl

end Sys2Proof.Machine

/-! PROOFS. The statements of 20_memory.md: the host window (R31, R36), the tables of the latched bank (R34, R35) and the ROM of half size (R49).

Each turns on one reduction: a window address counts only by its bits 11:1 (`windowIndex_eq_extractLsb'`), a ROM of 32768 bytes takes the 32768 out of a row's source (`rowSource_half_add_256`), and a table index stays below 512 (`tableIndex_lt`), so that base plus index stays inside the bank. -/

namespace Sys2Proof.Machine

/-! ### The ROM of half size -/

/-- With 32768 bytes the two banks of rows have the same source offsets (R49, R66). -/
theorem rowSource_half_add_256 (y : Nat) : rowSource 32768 (y + 256) = rowSource 32768 y := by
  unfold rowSource
  omega

/-- The planes see a row through its source offset only (R67). -/
theorem planeCode_eq_of_rowSource_eq (rom : Array Byte) (y y' x : Nat)
    (h : rowSource rom.size y = rowSource rom.size y') : planeCode rom y x = planeCode rom y' x := by
  simp only [planeCode, h]

/-! ### The host window -/

theorem windowIndex_eq_extractLsb' (addr : Word32) : windowIndex addr = (addr.extractLsb' 1 11).toNat := by
  rw [BitVec.extractLsb'_toNat]
  simp [windowIndex]

/-- A word write sees its address through the word index only (R31). -/
theorem hostWrite16_eq_of_windowIndex_eq (s : State) (addr addr' : Word32) (v : Word16)
    (h : windowIndex addr = windowIndex addr') : hostWrite16 s addr v = hostWrite16 s addr' v := by
  simp only [hostWrite16, h]

theorem exec_wr16_eq_of_windowIndex_eq (s : State) (addr addr' : Word32) (v : Word16)
    (h : windowIndex addr = windowIndex addr') : exec (.wr16 addr v) s = exec (.wr16 addr' v) s := by
  rw [exec_of_ne_reset _ s (by simp), exec_of_ne_reset _ s (by simp)]
  simp only [effect, hostWrite16_eq_of_windowIndex_eq s addr addr' v h]

/-- No operation undoes the launch premise (R111). -/
theorem launched_effect (i : Instr) (s : State) (hs : s.launched = true) : (effect i s).launched = true := by
  cases i with
  | reset => rfl
  | _ => exact hs

/-- A sequence after a RESET performs its first operation and goes on from the effect of that operation (R7, R111). -/
theorem runOps_cons_of_launched (i : Instr) (is : List Instr) (s : State) (hi : i ≠ .reset)
    (hs : s.launched = true) : runOps (i :: is) s = runOps is (effect i s) := by
  simp only [runOps, exec_of_launched i s hi hs]

theorem runOps_wr16_pair (s : State) (addr addr' : Word32) (v v' : Word16) (hs : s.launched = true) :
    runOps [.wr16 addr v, .wr16 addr' v'] s = .next (effect (.wr16 addr' v') (effect (.wr16 addr v) s)) := by
  rw [runOps_cons_of_launched _ _ s (by simp) hs,
    runOps_cons_of_launched _ _ _ (by simp) (launched_effect _ s hs), runOps]

/-- A dword write is a word write of the high half and one of the low half two bytes higher, but for the response (R36(b)). -/
theorem effect_wr32a_eq_two_wr16 (s : State) (addr value : Word32) :
    effect (.wr32a addr value) s =
      answer (effect (.wr16 (addr + 2) (lowHalf value)) (effect (.wr16 addr (highHalf value)) s)) (advance addr 4) :=
  rfl

/-! ### Bits and fields, as masks -/

/-- A bit is set exactly when the word keeps something under that bit's mask. -/
theorem getLsbD_iff_and_twoPow_ne_zero {w : Nat} (x : BitVec w) (i : Nat) (hi : i < w) :
    x.getLsbD i = true ↔ x &&& BitVec.twoPow w i ≠ 0#w := by
  have hmask : BitVec.twoPow w i ≠ 0#w := fun h => by
    simpa [hi] using congrArg (·.getLsbD i) h
  rw [BitVec.and_twoPow]
  cases x.getLsbD i <;> simp [hmask]

theorem direct_iff (ctrl : Byte) : direct ctrl = true ↔ ctrl &&& 4 ≠ 0 :=
  getLsbD_iff_and_twoPow_ne_zero ctrl 2 (by decide)

theorem indexField_eq_and (d : Word16) : indexField d = (d &&& 0x1FF).toNat := by
  rw [indexField, BitVec.extractLsb'_toNat, BitVec.toNat_and]
  exact (Nat.and_two_pow_sub_one_eq_mod d.toNat 9).symm

theorem indexField_lt (d : Word16) : indexField d < 512 :=
  (d.extractLsb' 0 9).isLt

/-! ### The table index and the two table reads -/

/-- The table index, with the bit of `CTRL` and the field of the control word written as masks (R35). -/
theorem tableIndex_eq_masked (s : State) (strip : Strip) (y : Nat) :
    tableIndex s strip y =
      if s.ctrl &&& 4 ≠ 0 then directIndex s.cfg strip y else (ctrlWord s strip y &&& 0x1FF).toNat := by
  simp only [tableIndex, direct_iff, indexField_eq_and]

/-- Without a bias a direct index is the line, and an indirect one has nine bits (R35). -/
theorem tableIndex_lt (s : State) (strip : Strip) (y : Nat) (hbias : s.cfg.directBias1 = 0) (hy : y < 224) :
    tableIndex s strip y < 512 := by
  unfold tableIndex
  split
  · cases strip <;> simp only [directIndex, hbias] <;> omega
  · exact indexField_lt _

theorem latchedWord_of_lt (s : State) (i : Nat) (hi : i < bankWords) : latchedWord s i = s.ramL.read i := by
  rw [latchedWord, Nat.mod_eq_of_lt hi]

/-- A horizontal-position read whose table fits the bank does not wrap (R92). -/
theorem rawPosition_of_lt (s : State) (strip : Strip) (y : Nat)
    (h : (stripParams s.cfg strip).hsBase + tableIndex s strip y < bankWords) :
    rawPosition s strip y = positionField (s.ramL.read ((stripParams s.cfg strip).hsBase + tableIndex s strip y)) := by
  rw [rawPosition, latchedWord_of_lt s _ h]

/-- A colour-select read whose table fits the bank does not wrap (R92). -/
theorem colourSelect_of_lt (s : State) (strip : Strip) (y : Nat)
    (h : s.cfg.colBase + tableIndex s strip y < bankWords) :
    colourSelect s strip y = s.ramL.read (s.cfg.colBase + tableIndex s strip y) := by
  rw [colourSelect, latchedWord_of_lt s _ h]

/-- `HS0_BASE` and `HS1_BASE` at their defaults (R34, decision D6) leave room for 512 words after them. -/
theorem hsBase_defaultConfig_le (rom : Array Byte) (strip : Strip) :
    (stripParams (defaultConfig rom) strip).hsBase ≤ 0x400 := by
  cases strip with
  | zero => exact (by decide : 0x200 ≤ 0x400)
  | one => exact le_rfl

/-! ### The obligations -/

/-- Settles O23: rows `y` and `y + 256` have the same source offset, so the same plane codes. -/
theorem halfSizeRomRepeatsItsBank : Obligations.HalfSizeRomRepeatsItsBank := by
  intro rom y x hsize hy hx
  have hsource : rowSource rom.size (y + 256) = rowSource rom.size y := by
    rw [hsize, rowSource_half_add_256]
  rw [surfAt_decodeRom_eq_markStripe, surfAt_decodeRom_eq_markStripe, if_pos ⟨by omega, hx⟩,
    if_pos ⟨by omega, hx⟩, planeCode_eq_of_rowSource_eq rom _ _ x hsource]

/-- Settles O25. -/
theorem windowIndexIsBits11To1 : Obligations.WindowIndexIsBits11To1 := by
  refine ⟨windowIndex_eq_extractLsb', fun s addr addr' value h => ?_⟩
  apply exec_wr16_eq_of_windowIndex_eq
  rw [windowIndex_eq_extractLsb', windowIndex_eq_extractLsb', h]

/-- Settles O29, from `effect_wr32a_eq_two_wr16`. -/
theorem dwordWriteIsTwoWordWrites : Obligations.DwordWriteIsTwoWordWrites := by
  intro s addr value hs
  refine ⟨_, _, exec_of_launched _ s (by simp) hs, runOps_wr16_pair s addr (addr + 2) _ _ hs, ?_⟩
  rw [effect_wr32a_eq_two_wr16]
  rfl

/-- Settles O43: with the default bases the last word of each table, base plus 511, is still in the bank. -/
theorem tableIndexStaysInItsTable : Obligations.TableIndexStaysInItsTable := by
  refine ⟨fun s y => ⟨tableIndex_eq_masked s .zero y, tableIndex_eq_masked s .one y⟩, fun s rom strip y hcfg hy => ?_⟩
  have hindex : tableIndex s strip y < 512 := tableIndex_lt s strip y (by rw [hcfg]; rfl) hy
  have hposition : (stripParams s.cfg strip).hsBase + tableIndex s strip y < bankWords := by
    have hbase := hsBase_defaultConfig_le rom strip
    simp only [hcfg, bankWords]
    omega
  have hcolour : s.cfg.colBase + tableIndex s strip y < bankWords := by
    simp only [hcfg, defaultConfig, bankWords]
    omega
  refine ⟨by omega, ?_, ?_⟩
  · rw [rawPosition_of_lt s strip y hposition, hcfg]
    cases strip <;> rfl
  · rw [colourSelect_of_lt s strip y hcolour, hcfg]
    rfl

end Sys2Proof.Machine

/-! PROOFS. The statements of 30_encoding.md: the transaction words (R50 to R52, R56) and which operation changes which piece of state (R52).

The decoder is inverted once, into the row of the operation map it took (`decode_ok_cases`) or the reserved code it met (`decode_error_iff`). Clearing the ignored bits of a word then acts on each of its three fields apart, which are what the encoder packs. -/

namespace Sys2Proof

open Machine

/-! ### The decoder, inverted -/

/-- A word that decodes took one of the twelve rows of the operation map, and its operands are the row's slices (R51, R52). -/
theorem decode_ok_cases (t : Transaction) (i : Instr) (h : decode t = .ok i) :
    (opField t = 0x00 ∧ i = .reset) ∨
    (opField t = 0x01 ∧ i = .wr16 (addrField t) (valueField t)) ∨
    (opField t = 0x02 ∧ i = .wr16a (addrField t) (valueField t)) ∨
    (opField t = 0x03 ∧ i = .wr32a (addrField t) (dataField t)) ∨
    (opField t = 0x04 ∧ i = .rdctl) ∨
    (opField t = 0x05 ∧ i = .wrctl (byteField t)) ∨
    (opField t = 0x06 ∧ i = .rbg) ∨
    (opField t = 0x07 ∧ i = .rfg) ∨
    (opField t = 0x08 ∧ i = .setoff1 (valueField t)) ∨
    (opField t = 0x09 ∧ i = .setoff2 (valueField t)) ∨
    (opField t = 0x0A ∧ i = .setoff3 (valueField t)) ∨
    (opField t = 0x0B ∧ i = .setxoff (valueField t)) := by
  unfold decode at h
  split at h <;> cases h
  all_goals
    next hcode => simp [← BitVec.toNat_inj, hcode]

/-- The decoder rejects a word exactly when its code is reserved, and then by that code (R56). -/
theorem decode_error_iff (t : Transaction) (e : DecodeError) :
    decode t = .error e ↔ 0x0C ≤ (opField t).toNat ∧ e = .reservedOperation (opField t) := by
  unfold decode
  split
  case h_13 =>
    -- the default arm: the code is none of 0 to 11
    simp only [imp_false] at *
    have hreserved : 0x0C ≤ (opField t).toNat := by omega
    simp [hreserved, eq_comm]
  all_goals
    next hcode => simp [hcode]

/-! ### A word without its ignored bits -/

/-- A mask that keeps the operation code acts on the operand fields alone. -/
theorem and_pack_mask (t : Transaction) (ma md : Word32) :
    t &&& packTransaction 0xFF ma md = packTransaction (opField t) (addrField t &&& ma) (dataField t &&& md) := by
  have hop : opField t &&& 0xFF = opField t := BitVec.and_allOnes
  rw [← hop, ← pack_and, pack_fields]

/-- The low bits of a word, widened again, are the word under their mask. -/
theorem setWidth_extractLsb'_zero {w n : Nat} (x : BitVec w) :
    (x.extractLsb' 0 n).setWidth w = x &&& (BitVec.allOnes n).setWidth w := by
  apply BitVec.eq_of_getLsbD_eq
  intro i hi
  simp [hi, Bool.and_comm]

/-- The mask of a field whose bits are all used. -/
@[simp] theorem word32_and_ffffffff (x : Word32) : x &&& 0xFFFFFFFF#32 = x :=
  BitVec.and_allOnes

theorem valueField_setWidth (t : Transaction) : (valueField t).setWidth 32 = dataField t &&& 0xFFFF :=
  setWidth_extractLsb'_zero (dataField t)

theorem byteField_setWidth (t : Transaction) : (byteField t).setWidth 32 = dataField t &&& 0xFF :=
  setWidth_extractLsb'_zero (dataField t)

/-- An operation packed from a word's own code and masked operand fields is that word under the code's mask. -/
theorem encode_eq_and_usedMask (t : Transaction) (i : Instr) (op : Byte) (ma md : Word32) (hop : opField t = op)
    (hmask : usedMask op = some (packTransaction 0xFF ma md))
    (hword : encode i = packTransaction op (addrField t &&& ma) (dataField t &&& md)) :
    ∃ m, usedMask (opField t) = some m ∧ encode i = t &&& m :=
  ⟨_, hop ▸ hmask, by rw [and_pack_mask, hop, hword]⟩

/-! ### A step on a rejected word -/

/-- A step on a word that the decoder rejects is refused by the decoder's reason (R56). -/
theorem step_of_rejected (s : State) (t : Transaction) (rest : List Transaction) (e : DecodeError)
    (hp : s.pending = t :: rest) (hd : decode t = .error e) : step s = .refused (decodeRefusal e) := by
  simp [step, takeIssued_cons s t rest hp, hd]

/-! ### The obligations about words -/

/-- Settles O1, from `decode_encode`, which takes the operations one by one. -/
theorem decodeOfEncodeIsTheOperation : Obligations.DecodeOfEncodeIsTheOperation :=
  decode_encode

/-- Settles O2, row by row of the operation map: the address and data bits that each row's operands use (R51). -/
theorem encodeOfDecodeClearsOnlyIgnoredBits : Obligations.EncodeOfDecodeClearsOnlyIgnoredBits := by
  intro t i h
  rcases decode_ok_cases t i h with ⟨hop, rfl⟩ | ⟨hop, rfl⟩ | ⟨hop, rfl⟩ | ⟨hop, rfl⟩ | ⟨hop, rfl⟩ | ⟨hop, rfl⟩ |
    ⟨hop, rfl⟩ | ⟨hop, rfl⟩ | ⟨hop, rfl⟩ | ⟨hop, rfl⟩ | ⟨hop, rfl⟩ | ⟨hop, rfl⟩
  · exact encode_eq_and_usedMask t _ _ 0 0 hop (by decide) (by simp [encode])
  · exact encode_eq_and_usedMask t _ _ 0xFFFFFFFF 0xFFFF hop (by decide) (by simp [encode, valueField_setWidth])
  · exact encode_eq_and_usedMask t _ _ 0xFFFFFFFF 0xFFFF hop (by decide) (by simp [encode, valueField_setWidth])
  · exact encode_eq_and_usedMask t _ _ 0xFFFFFFFF 0xFFFFFFFF hop (by decide) (by simp [encode])
  · exact encode_eq_and_usedMask t _ _ 0 0 hop (by decide) (by simp [encode])
  · exact encode_eq_and_usedMask t _ _ 0 0xFF hop (by decide) (by simp [encode, byteField_setWidth])
  · exact encode_eq_and_usedMask t _ _ 0 0 hop (by decide) (by simp [encode])
  · exact encode_eq_and_usedMask t _ _ 0 0 hop (by decide) (by simp [encode])
  · exact encode_eq_and_usedMask t _ _ 0 0xFFFF hop (by decide) (by simp [encode, valueField_setWidth])
  · exact encode_eq_and_usedMask t _ _ 0 0xFFFF hop (by decide) (by simp [encode, valueField_setWidth])
  · exact encode_eq_and_usedMask t _ _ 0 0xFFFF hop (by decide) (by simp [encode, valueField_setWidth])
  · exact encode_eq_and_usedMask t _ _ 0 0xFFFF hop (by decide) (by simp [encode, valueField_setWidth])

/-- Settles O3: both ranges from `decode_error_iff`, and a step answers what the decoder does. -/
theorem reservedCodesAreRefusedAndOthersDecode : Obligations.ReservedCodesAreRefusedAndOthersDecode := by
  refine ⟨fun t hcode => ?_, fun t hcode => (decode_error_iff t _).2 ⟨hcode, rfl⟩, fun s t rest hp hcode => ?_⟩
  · cases h : decode t with
    | ok i => exact ⟨i, rfl⟩
    | error e =>
      obtain ⟨hreserved, -⟩ := (decode_error_iff t e).1 h
      omega
  · exact step_of_rejected s t rest _ hp ((decode_error_iff t _).2 ⟨hcode, rfl⟩)

end Sys2Proof

namespace Sys2Proof.Machine

/-! ### Which operations change a piece of state -/

section
variable (i : Instr) (s : State)

theorem effect_cfg : (effect i s).cfg = s.cfg := by
  cases i <;> rfl

theorem effect_pending : (effect i s).pending = s.pending := by
  cases i <;> rfl

theorem eq_reset_of_effect_surf_ne (h : (effect i s).surf ≠ s.surf) : i = .reset := by
  cases i with
  | reset => rfl
  | _ => exact absurd rfl h

theorem reset_or_rdctl_of_effect_ramL_ne (h : (effect i s).ramL ≠ s.ramL) : i = .reset ∨ i = .rdctl := by
  cases i with
  | reset => exact .inl rfl
  | rdctl => exact .inr rfl
  | _ => exact absurd rfl h

theorem bankOperation_of_effect_ramW_ne (h : (effect i s).ramW ≠ s.ramW) :
    i = .reset ∨ i = .rdctl ∨ (∃ a v, i = .wr16 a v) ∨ (∃ a v, i = .wr16a a v) ∨ ∃ a v, i = .wr32a a v := by
  cases i with
  | reset | rdctl | wr16 | wr16a | wr32a => simp
  | _ => exact absurd rfl h

theorem rbg_or_rfg_of_effect_pix_ne (h : (effect i s).pix ≠ s.pix) : i = .rbg ∨ i = .rfg := by
  cases i with
  | rbg => exact .inl rfl
  | rfg => exact .inr rfl
  | _ => exact absurd rfl h

/-- RESET may change all five registers; each other operation leaves all of them but the one it sets (R78 to R82). -/
theorem setter_of_effect_register_ne :
    ((effect i s).ctrl ≠ s.ctrl → i = .reset ∨ ∃ b, i = .wrctl b) ∧
    ((effect i s).off1 ≠ s.off1 → i = .reset ∨ ∃ v, i = .setoff1 v) ∧
    ((effect i s).off2 ≠ s.off2 → i = .reset ∨ ∃ v, i = .setoff2 v) ∧
    ((effect i s).off3 ≠ s.off3 → i = .reset ∨ ∃ v, i = .setoff3 v) ∧
    ((effect i s).xoff ≠ s.xoff → i = .reset ∨ ∃ v, i = .setxoff v) := by
  cases i with
  | reset => simp
  | wr32a addr value => simp [effect, hostWrite32]
  | _ => simp [effect]

end

/-- Settles O11: the next state is the effect of the operation, and the effect is taken piece by piece. -/
theorem eachPieceChangesOnlyByItsOperations : Obligations.EachPieceChangesOnlyByItsOperations := by
  intro i s t he
  obtain ⟨-, rfl⟩ := (exec_next_iff i s t).1 he
  exact ⟨effect_cfg i s, effect_pending i s, eq_reset_of_effect_surf_ne i s, reset_or_rdctl_of_effect_ramL_ne i s,
    bankOperation_of_effect_ramW_ne i s, rbg_or_rfg_of_effect_pix_ne i s, setter_of_effect_register_ne i s⟩

end Sys2Proof.Machine

/-! PROOFS. The statements of 40_rom_decoder.md: the row sources (R66), the plane bits and the stripe marking (R67, R68), the synthetic row (R69) and the ROM bytes the decoder reads (R70).

An entry of rows 0 to 511 is the marked plane code (`surfAt_decodeRom_eq_markStripe`). Its bits 0 and 1 are the two plane bits, for marking does no more than set bit 2 (`markStripe_eq_or`); and of a ROM of 65536 bytes or more the planes read addresses below 65536 only (`planeCode_congr`). -/

namespace Sys2Proof.Machine

/-! ### The bits of a plane code -/

theorem planeCode_bit0 (rom : Array Byte) (y x : Nat) :
    (planeCode rom y x).getLsbD 0 = planeBit rom (rowSource rom.size y + x / 8) x := by
  simp [planeCode]

theorem planeCode_bit1 (rom : Array Byte) (y x : Nat) :
    (planeCode rom y x).getLsbD 1 = planeBit rom (rowSource rom.size y + x / 8 + 0x4000) x := by
  simp [planeCode]

theorem planeCode_bit2 (rom : Array Byte) (y x : Nat) : (planeCode rom y x).getLsbD 2 = false := by
  simp [planeCode]

/-- Without its bit 2 a code is 3 exactly when both its plane bits are 1. -/
theorem decide_planeCode_eq_three (rom : Array Byte) (y x : Nat) :
    decide (planeCode rom y x = 3) = ((planeCode rom y x).getLsbD 0 && (planeCode rom y x).getLsbD 1) := by
  rcases planeCode_cases rom y x with h | h | h | h <;> rw [h] <;> decide

theorem planeCode_ne_seven (rom : Array Byte) (y x : Nat) : planeCode rom y x ≠ 7 := by
  intro h
  have hbit := planeCode_bit2 rom y x
  rw [h] at hbit
  exact absurd hbit (by decide)

/-! ### Stripe marking -/

/-- Stripe marking sets bit 2 and touches no other (R68). -/
theorem markStripe_eq_or (x : Nat) (c : Code) :
    markStripe x c = c ||| (if 248 ≤ x ∧ x < 256 ∧ c = 3 then 4 else 0) := by
  unfold markStripe
  split
  · next h => rw [h.2.2]; rfl
  · exact BitVec.or_zero.symm

theorem markStripe_bit0 (x : Nat) (c : Code) : (markStripe x c).getLsbD 0 = c.getLsbD 0 := by
  rw [markStripe_eq_or, BitVec.getLsbD_or]
  split <;> simp

theorem markStripe_bit1 (x : Nat) (c : Code) : (markStripe x c).getLsbD 1 = c.getLsbD 1 := by
  rw [markStripe_eq_or, BitVec.getLsbD_or]
  split <;> simp

theorem markStripe_bit2 (x : Nat) (c : Code) :
    (markStripe x c).getLsbD 2 = (c.getLsbD 2 || decide (248 ≤ x ∧ x < 256 ∧ c = 3)) := by
  rw [markStripe_eq_or, BitVec.getLsbD_or]
  split
  · next h => rw [decide_eq_true h]; rfl
  · next h => rw [decide_eq_false h]; rfl

/-- Marking makes a 7 of a marked code 3 only. -/
theorem markStripe_eq_seven_iff (x : Nat) (c : Code) (hc : c ≠ 7) :
    markStripe x c = 7 ↔ 248 ≤ x ∧ x < 256 ∧ c = 3 := by
  unfold markStripe
  split
  · next h => exact iff_of_true rfl h
  · next h => exact iff_of_false hc h

theorem surfAt_decodeRom_of_rom_row (rom : Array Byte) (y x : Nat) (hy : y < 512) (hx : x < 512) :
    surfAt (decodeRom rom) y x = markStripe x (planeCode rom y x) := by
  rw [surfAt_decodeRom_eq_markStripe, if_pos ⟨hy, hx⟩]

/-- Settles O19: marking keeps the plane bits, and sets bit 2 where both are 1. -/
theorem decodedBitsComeFromThePlanes : Obligations.DecodedBitsComeFromThePlanes := by
  intro rom y x hy hx src a b code
  have hcode : code = markStripe x (planeCode rom y x) := surfAt_decodeRom_of_rom_row rom y x hy hx
  have ha : (planeCode rom y x).getLsbD 0 = a := planeCode_bit0 rom y x
  have hb : (planeCode rom y x).getLsbD 1 = b := planeCode_bit1 rom y x
  refine ⟨?_, ?_, ?_⟩
  · rw [hcode, markStripe_bit0, ha]
  · rw [hcode, markStripe_bit1, hb]
  · calc code.getLsbD 2
        = decide (248 ≤ x ∧ x < 256 ∧ planeCode rom y x = 3) := by
          rw [hcode, markStripe_bit2, planeCode_bit2, Bool.false_or]
      _ = (decide (planeCode rom y x = 3) && decide (248 ≤ x ∧ x < 256)) := by
          rw [← Bool.decide_and]
          exact decide_eq_decide.2 (by tauto)
      _ = (a && b && decide (248 ≤ x ∧ x < 256)) := by
          rw [decide_planeCode_eq_three, ha, hb]

/-- Settles O20: the planes alone never make a 7. -/
theorem stripeZoneMarking : Obligations.StripeZoneMarking := by
  intro rom y x hy hx
  rw [surfAt_decodeRom_of_rom_row rom y x hy hx]
  exact ⟨rfl, markStripe_eq_seven_iff x _ (planeCode_ne_seven rom y x)⟩

/-! ### The ROM bytes the decoder reads -/

/-- The offset of a row of a ROM of 65536 bytes or more, in which no reduction takes place. -/
theorem rowSource_of_full_rom (romLen y : Nat) (hlen : 65536 ≤ romLen) (hy : y < 512) :
    rowSource romLen y = y % 256 * 64 + y / 256 * 32768 :=
  Nat.mod_eq_of_lt (by omega)

theorem romByte_of_lt_size (rom : Array Byte) (addr : Nat) (h : addr < rom.size) :
    romByte rom addr = rom.getD addr 0 := by
  rw [romByte, Nat.mod_eq_of_lt h]

/-- Both planes of a row lie below address 65536, and so ROMs that agree there give the same codes (R70). -/
theorem planeCode_congr (rom rom' : Array Byte) (hlen : 65536 ≤ rom.size) (hlen' : 65536 ≤ rom'.size)
    (hsame : ∀ addr, addr < 65536 → rom.getD addr 0 = rom'.getD addr 0) (y x : Nat) (hy : y < 512) (hx : x < 512) :
    planeCode rom y x = planeCode rom' y x := by
  have hbit (addr : Nat) (h : addr < 65536) : planeBit rom addr x = planeBit rom' addr x := by
    rw [planeBit, planeBit, romByte_of_lt_size rom addr (by omega), romByte_of_lt_size rom' addr (by omega),
      hsame addr h]
  dsimp only [planeCode]
  rw [rowSource_of_full_rom _ y hlen hy, rowSource_of_full_rom _ y hlen' hy, hbit _ (by omega), hbit _ (by omega)]

/-- A surface table is what its 513 x 512 places read. -/
theorem surfaceTable_ext (t u : SurfaceTable)
    (h : ∀ row col, row < 513 → col < 512 → surfAt t row col = surfAt u row col) : t = u := by
  ext row hrow col hcol : 2
  have hplace := h row col hrow hcol
  rwa [surfAt_eq, surfAt_eq, dif_pos ⟨hrow, hcol⟩, dif_pos ⟨hrow, hcol⟩] at hplace

/-- Settles O24, entry by entry. -/
theorem excessRomBytesAreNeverRead : Obligations.ExcessRomBytesAreNeverRead := by
  intro rom rom' hlen hlen' hsame
  refine surfaceTable_ext _ _ fun row col _ hcol => ?_
  rw [surfAt_decodeRom_eq_markStripe, surfAt_decodeRom_eq_markStripe]
  by_cases hin : row < 512 ∧ col < 512
  · rw [if_pos hin, if_pos hin, planeCode_congr rom rom' hlen hlen' hsame row col hin.1 hcol]
  · rw [if_neg hin, if_neg hin]

/-- Settles O18, one half of the rows at a time. -/
theorem rowSourceOffset : Obligations.RowSourceOffset := by
  intro romLen y hy
  have hoffset : y % 256 * 64 + y / 256 * 32768 = if y ≤ 255 then y * 64 else (y - 256) * 64 + 32768 := by
    split <;> omega
  rw [rowSource, hoffset]

/-- Settles O21. -/
theorem syntheticRowIsOffRoad : Obligations.SyntheticRowIsOffRoad :=
  fun rom x _ => surfAt_decodeRom_offRoad rom x

end Sys2Proof.Machine

/-! PROOFS. The statements of 41_register_store.md: the window writes (R73 to R75), the swap (R76, R77), the control byte (R78) and the four setters (R79 to R82).

A completed operation is its effect (`exec_of_launched`), so each statement is about effects. A cursor advanced by 2 selects the next word, indices modulo 2048 (`windowIndex_add_two`); a sequence of operations without RESET is their effects one after another (`runOps_of_launched`); and the loop of R76 treats the two banks alike (`exchangeSlots_exchangeBanks`), so what it does to the writable bank it does to the latched one. -/

namespace Sys2Proof.Machine

/-! ### The window and the cursor -/

/-- Two bytes on is one word on, and word 0 comes after word 2047 (R31, R75). -/
theorem windowIndex_add_two (addr : Word32) : windowIndex (addr + 2) = (windowIndex addr + 1) % 2048 := by
  have htwo : (2 : Word32).toNat = 2 := rfl
  simp only [windowIndex, BitVec.toNat_ushiftRight, BitVec.toNat_add, htwo, Nat.shiftRight_one]
  omega

theorem toNat_advance (cursor : Word32) (bytes : Nat) :
    (advance cursor bytes).toNat = (cursor.toNat + bytes) % 2 ^ 32 := by
  simp [advance]

/-- A word write changes one word of the writable bank (R31, R73). -/
theorem read_hostWrite16 (s : State) (addr : Word32) (v : Word16) (i : Nat) :
    (hostWrite16 s addr v).ramW.read i = if i = windowIndex addr then v else s.ramW.read i :=
  Memory.read_write s.ramW (windowIndex addr) i v

/-- A dword write changes two words, the low half's last (R36(b)). -/
theorem read_hostWrite32 (s : State) (addr v : Word32) (i : Nat) :
    (hostWrite32 s addr v).ramW.read i =
      if i = windowIndex (addr + 2) then lowHalf v
      else if i = windowIndex addr then highHalf v else s.ramW.read i := by
  rw [hostWrite32, read_hostWrite16, read_hostWrite16]

/-! ### A host that follows the cursor -/

/-- The rest of a stream of words goes on two bytes higher, at the cursor the first write answers (R74). -/
theorem streamWords_cons_of_launched (addr : Word32) (v : Word16) (vs : List Word16) (s : State)
    (hs : s.launched = true) :
    streamWords addr (v :: vs) s = streamWords (addr + 2) vs (effect (.wr16a addr v) s) := by
  simp only [streamWords, exec_of_launched (.wr16a addr v) s (by simp) hs]
  rfl

/-- Word `k` from the next cursor on is word `k + 1` from this one on (R31). -/
theorem wordFrom_add_two (addr : Word32) (k : Nat) :
    (windowIndex (addr + 2) + k) % 2048 = (windowIndex addr + (k + 1)) % 2048 := by
  rw [windowIndex_add_two]
  omega

/-- Within the first 2048 words from a cursor on, no later one is the first again. -/
theorem windowIndex_ne_wordFrom_add_two (addr : Word32) (k : Nat) (hk : k + 1 < 2048) :
    windowIndex addr ≠ (windowIndex (addr + 2) + k) % 2048 := by
  have hlt : windowIndex addr < 2048 := windowIndex_lt addr
  rw [wordFrom_add_two]
  omega

/-! ### Sequences without a RESET -/

/-- The effects of a sequence of operations, one after another. -/
def effects (is : List Instr) (s : State) : State := is.foldl (fun u i => effect i u) s

@[simp] theorem effects_cons (i : Instr) (is : List Instr) (s : State) :
    effects (i :: is) s = effects is (effect i s) := rfl

@[simp] theorem effects_concat (is : List Instr) (i : Instr) (s : State) :
    effects (is ++ [i]) s = effect i (effects is s) := by
  simp [effects]

theorem launched_effects (is : List Instr) (s : State) (hs : s.launched = true) : (effects is s).launched = true := by
  induction is generalizing s with
  | nil => exact hs
  | cons i is ih => exact ih _ (launched_effect i s hs)

/-- After a RESET a sequence without a further one completes with its effects (R7, R100, R111). -/
theorem runOps_of_launched (is : List Instr) (s : State) (his : ∀ i ∈ is, i ≠ .reset) (hs : s.launched = true) :
    runOps is s = .next (effects is s) := by
  induction is generalizing s with
  | nil => rfl
  | cons i is ih =>
    rw [runOps_cons_of_launched i is s (his i (by simp)) hs, effects_cons]
    exact ih _ (fun j hj => his j (by simp [hj])) (launched_effect i s hs)

/-! ### Word writes one after another -/

/-- One more write overrides the earlier ones to its word and no others. -/
theorem lastWrite_concat (writes : List (Word32 × Word16)) (w : Word32 × Word16) (i : Nat) :
    lastWrite (writes ++ [w]) i = if i = windowIndex w.1 then some w.2 else lastWrite writes i := by
  simp [lastWrite, eq_comm]

/-- The WR16 operations of a list of (address, value) writes. -/
def wordWrites (writes : List (Word32 × Word16)) : List Instr := writes.map fun w => .wr16 w.1 w.2

theorem wordWrites_concat (writes : List (Word32 × Word16)) (w : Word32 × Word16) :
    wordWrites (writes ++ [w]) = wordWrites writes ++ [.wr16 w.1 w.2] := by
  simp [wordWrites]

theorem ne_reset_of_mem_wordWrites (writes : List (Word32 × Word16)) (i : Instr) (hi : i ∈ wordWrites writes) :
    i ≠ .reset := by
  obtain ⟨w, -, rfl⟩ := List.mem_map.1 hi
  simp

/-- After word writes the writable bank yields at each word the last value written there, or what it held (R8). -/
theorem read_ramW_wordWrites (writes : List (Word32 × Word16)) (s : State) (i : Nat) :
    (effects (wordWrites writes) s).ramW.read i = (lastWrite writes i).getD (s.ramW.read i) := by
  induction writes using List.reverseRecOn with
  | nil => rfl
  | append_singleton writes w ih =>
    rw [wordWrites_concat, effects_concat, lastWrite_concat, effect, answer_ramW, read_hostWrite16, ih]
    split <;> rfl

theorem ramL_wordWrites (writes : List (Word32 × Word16)) (s : State) :
    (effects (wordWrites writes) s).ramL = s.ramL := by
  induction writes using List.reverseRecOn with
  | nil => rfl
  | append_singleton writes w ih => rwa [wordWrites_concat, effects_concat]

/-! ### The loop of R76, slot by slot -/

/-- Slots 0 to `n - 1` exchanged one after another. -/
def exchangeSlots (n : Nat) (s : State) : State := (List.range n).foldl exchangeSlot s

theorem exchangeSlots_succ (n : Nat) (s : State) :
    exchangeSlots (n + 1) s = exchangeSlot (exchangeSlots n s) n := by
  simp [exchangeSlots, List.range_succ]

/-- The loop treats the two banks alike: with them exchanged beforehand it does the same, the banks exchanged. -/
theorem exchangeSlots_exchangeBanks (n : Nat) (s : State) :
    exchangeSlots n (exchangeBanks s) = exchangeBanks (exchangeSlots n s) :=
  List.foldl_hom exchangeBanks fun _ _ => rfl

/-- So what the loop leaves in the latched bank is what it leaves in the writable bank of the exchanged state. -/
theorem exchangeSlots_ramL (n : Nat) (s : State) :
    (exchangeSlots n s).ramL = (exchangeSlots n (exchangeBanks s)).ramW := by
  rw [exchangeSlots_exchangeBanks, exchangeBanks_ramW]

/-- The slots below `n` are exchanged, the others are as they were. -/
theorem read_ramW_exchangeSlots (n : Nat) (s : State) (i : Nat) :
    (exchangeSlots n s).ramW.read i = if i < n then s.ramL.read i else s.ramW.read i := by
  induction n generalizing s i with
  | zero => rfl
  | succ n ih =>
    have hlatched : (exchangeSlots n s).ramL.read n = s.ramL.read n := by
      rw [exchangeSlots_ramL, ih, if_neg (lt_irrefl n), exchangeBanks_ramW]
    rw [exchangeSlots_succ, exchangeSlot, Memory.read_write, hlatched, ih]
    by_cases hi : i = n
    · subst hi
      simp
    · have hlt : i < n + 1 ↔ i < n := by omega
      simp only [if_neg hi, hlt]

theorem wf_ramW_exchangeSlots (n : Nat) (s : State) (hn : n ≤ bankWords) (hs : s.ramW.wf = true) :
    (exchangeSlots n s).ramW.wf = true := by
  induction n with
  | zero => exact hs
  | succ n ih =>
    rw [exchangeSlots_succ]
    exact Memory.wf_write _ _ _ (ih (by omega)) (by omega)

/-- The whole loop leaves the latched bank in the writable one: in canonical form equal words are equal banks. -/
theorem ramW_exchangeSlots_bankWords (s : State) (hW : s.ramW.wf = true) (hL : s.ramL.wf = true) :
    (exchangeSlots bankWords s).ramW = s.ramL := by
  apply Memory.ext_of_read _ _ (wf_ramW_exchangeSlots bankWords s le_rfl hW) hL
  intro i
  rw [read_ramW_exchangeSlots]
  split
  · rfl
  · next hi =>
    have hpast : bankWords ≤ i := Nat.le_of_not_lt hi
    rw [Memory.read_past s.ramW i hW hpast, Memory.read_past s.ramL i hL hpast]

/-- The loop touches the two banks only. -/
theorem exchangeSlots_frame (n : Nat) (s : State) :
    exchangeSlots n s = { s with ramW := (exchangeSlots n s).ramW, ramL := (exchangeSlots n s).ramL } := by
  induction n with
  | zero => rfl
  | succ n ih =>
    rw [exchangeSlots_succ, ih]
    rfl

/-- The loop over all 2048 slots is the exchange of the banks (R14, R76). -/
theorem exchangeSlots_bankWords (s : State) (hW : s.ramW.wf = true) (hL : s.ramL.wf = true) :
    exchangeSlots bankWords s = exchangeBanks s := by
  have hramL : (exchangeSlots bankWords s).ramL = s.ramW := by
    rw [exchangeSlots_ramL]
    exact ramW_exchangeSlots_bankWords (exchangeBanks s) hL hW
  rw [exchangeSlots_frame, ramW_exchangeSlots_bankWords s hW hL, hramL, exchangeBanks]

/-! ### The obligations -/

/-- Settles O26. -/
theorem wr16Completes : Obligations.Wr16Completes := by
  intro s addr value hs
  exact ⟨_, exec_of_launched (.wr16 addr value) s (by simp) hs, read_hostWrite16 s addr value, rfl⟩

/-- Settles O27. -/
theorem wr16aCompletes : Obligations.Wr16aCompletes := by
  intro s addr value hs
  exact ⟨_, exec_of_launched (.wr16a addr value) s (by simp) hs, read_hostWrite16 s addr value,
    toNat_advance addr 2, rfl⟩

/-- Settles O28. -/
theorem wr32aCompletes : Obligations.Wr32aCompletes := by
  intro s addr value hs
  exact ⟨_, exec_of_launched (.wr32a addr value) s (by simp) hs, read_hostWrite32 s addr value,
    windowIndex_add_two addr, toNat_advance addr 4, rfl⟩

/-- Settles O30, by induction on the values: the first word is not written again, for fewer than 2048 follow it. -/
theorem cursorWritesConsecutiveWords : Obligations.CursorWritesConsecutiveWords := by
  intro vs
  induction vs with
  | nil => exact fun s addr _ _ => ⟨s, rfl, by simp, fun _ _ => rfl⟩
  | cons v vs ih =>
    intro s addr hs hlength
    rw [List.length_cons] at hlength
    obtain ⟨t, hrun, hwritten, hother⟩ :=
      ih (effect (.wr16a addr v) s) (addr + 2) (launched_effect _ s hs) (by omega)
    have hfirst : ∀ i, (effect (.wr16a addr v) s).ramW.read i = if i = windowIndex addr then v else s.ramW.read i :=
      read_hostWrite16 s addr v
    have hmod : windowIndex addr % 2048 = windowIndex addr := Nat.mod_eq_of_lt (windowIndex_lt addr)
    refine ⟨t, by rw [streamWords_cons_of_launched addr v vs s hs, hrun], fun k hk => ?_, fun i hi => ?_⟩
    · cases k with
      | zero =>
        rw [Nat.add_zero, hmod, hother _ fun k hk => windowIndex_ne_wordFrom_add_two addr k (by omega), hfirst,
          if_pos rfl, List.getElem_cons_zero]
      | succ k =>
        rw [← wordFrom_add_two, hwritten k (Nat.lt_of_succ_lt_succ hk), List.getElem_cons_succ]
    · have hne : i ≠ windowIndex addr := by
        simpa only [Nat.add_zero, hmod] using hi 0 (by simp)
      have hlater : ∀ k, k < vs.length → i ≠ (windowIndex (addr + 2) + k) % 2048 := fun k hk => by
        rw [wordFrom_add_two]
        exact hi (k + 1) (Nat.succ_lt_succ hk)
      rw [hother i hlater, hfirst, if_neg hne]

/-- Settles O33, from `exchangeSlots_bankWords`. -/
theorem swapIsTheSlotBySlotLoop : Obligations.SwapIsTheSlotBySlotLoop := by
  intro s hs hW hL
  exact ⟨_, exec_of_launched .rdctl s (by simp) hs, (exchangeSlots_bankWords s hW hL).symm⟩

/-- Settles O34: the writes stand in the writable bank, and the swap makes it the latched one. -/
theorem swapDeliversTheWrites : Obligations.SwapDeliversTheWrites := by
  intro writes s hs
  have hnoReset : ∀ i ∈ wordWrites writes ++ [.rdctl], i ≠ .reset := by
    simpa [or_imp, forall_and] using ne_reset_of_mem_wordWrites writes
  refine ⟨_, runOps_of_launched (wordWrites writes ++ [.rdctl]) s hnoReset hs, ?_⟩
  rw [effects_concat]
  exact ⟨read_ramW_wordWrites writes s, ramL_wordWrites writes s⟩

/-- Settles O32. -/
theorem rdctlAnswersTheSentinel : Obligations.RdctlAnswersTheSentinel := by
  intro s s' hs hs' hcfg
  refine ⟨_, _, exec_of_launched .rdctl s (by simp) hs, exec_of_launched .rdctl s' (by simp) hs', ?_, ?_⟩
  · exact BitVec.toNat_setWidth_of_le (by decide)
  · simp only [effect, answer_resp, hcfg]

/-- Settles O36. -/
theorem wrctlCompletes : Obligations.WrctlCompletes := by
  intro s byte hs
  exact ⟨_, exec_of_launched (.wrctl byte) s (by simp) hs, rfl, rfl⟩

/-- Settles O37. -/
theorem settersComplete : Obligations.SettersComplete := by
  intro s value hs
  exact ⟨⟨_, exec_of_launched (.setoff1 value) s (by simp) hs, rfl, rfl⟩,
    ⟨_, exec_of_launched (.setoff2 value) s (by simp) hs, rfl, rfl⟩,
    ⟨_, exec_of_launched (.setoff3 value) s (by simp) hs, rfl, rfl⟩,
    ⟨_, exec_of_launched (.setxoff value) s (by simp) hs, rfl, rfl⟩⟩

end Sys2Proof.Machine

/-! PROOFS. The statements of 42_background.md: the colour RBG selects (R86), the lines it fills (R85, R87), what it reads (R89), and how the two compositors share a frame (R88, R111).

Each pass comes down to one pixel: after RBG it is the selected colour or what it was (`pixAt_effect_rbg`), after RFG the shown colour or what it was (`pixAt_effect_rfg`). RFG reads neither the buffer nor the response, so a frame is the two side by side; and a line RFG skips is one for which RBG selects a colour (`isSome_skySelect_of_foregroundSkips`). -/

namespace Sys2Proof.Machine

/-! ### The mode -/

/-- The value of `CTRL[1:0]` that selects a mode (R53). -/
def modeNumber : Mode → Nat
  | .strip0Only => 0
  | .preferStrip0 => 1
  | .preferStrip1 => 2
  | .strip1Only => 3

theorem modeOf_eq_of_mod_four (ctrl : Byte) (mode : Mode) (h : ctrl.toNat % 4 = modeNumber mode) :
    modeOf ctrl = mode := by
  have hfield : (ctrl.extractLsb' 0 2).toNat = modeNumber mode := by
    rw [BitVec.extractLsb'_toNat]
    exact h
  rw [modeOf, hfield]
  cases mode <;> rfl

theorem modeOf_congr (ctrl ctrl' : Byte) (h : ctrl.extractLsb' 0 2 = ctrl'.extractLsb' 0 2) :
    modeOf ctrl = modeOf ctrl' := by
  simp only [modeOf, h]

/-! ### The sky colour selected for two control words -/

theorem solid_iff (d : Word16) : solid d = true ↔ d &&& 0x800 ≠ 0 :=
  getLsbD_iff_and_twoPow_ne_zero d 11 (by decide)

/-- A control word offers its bits 6:0 where its solid bit, written as a mask, is set (R54, R86). -/
theorem skyOf_eq_masked (d : Word16) :
    skyOf d = if d &&& 0x800 ≠ 0 then some (d.extractLsb' 0 7) else none := by
  simp only [skyOf, solid_iff, skyField]

/-- The preferred word's colour if it is solid, else the other's (R86). -/
theorem skyOf_or_eq_masked (d d' : Word16) :
    (skyOf d).or (skyOf d') =
      if d &&& 0x800 ≠ 0 then some (d.extractLsb' 0 7)
      else if d' &&& 0x800 ≠ 0 then some (d'.extractLsb' 0 7) else none := by
  rw [skyOf_eq_masked d, skyOf_eq_masked d']
  split <;> rfl

@[simp] theorem isSome_skyOf (d : Word16) : (skyOf d).isSome = solid d := by
  cases h : solid d <;> simp [skyOf, h]

/-- In modes 1 and 2 a colour is selected exactly where one strip or both are solid (R86). -/
theorem isSome_skySelect_of_prefer (mode : Mode) (d0 d1 : Word16)
    (hmode : mode = .preferStrip0 ∨ mode = .preferStrip1) :
    (skySelect mode d0 d1).isSome = (solid d0 || solid d1) := by
  rcases hmode with rfl | rfl
  · simp [skySelect]
  · simp [skySelect, Bool.or_comm]

/-- In modes 1 and 2 RFG skips a line for its two solid bits only (R91, R96). -/
theorem foregroundSkips_of_prefer (mode : Mode) (d0 d1 : Word16)
    (hmode : mode = .preferStrip0 ∨ mode = .preferStrip1) :
    foregroundSkips mode d0 d1 = (solid d0 && solid d1) := by
  rcases hmode with rfl | rfl <;> simp [foregroundSkips]

theorem foregroundSkips_strip0Only (d0 d1 : Word16) : foregroundSkips .strip0Only d0 d1 = solid d0 := by
  cases h : solid d0 <;> simp [foregroundSkips, h]

theorem foregroundSkips_strip1Only (d0 d1 : Word16) : foregroundSkips .strip1Only d0 d1 = solid d1 := by
  cases h : solid d1 <;> simp [foregroundSkips, h]

theorem foregroundSkips_of_both_solid (mode : Mode) (d0 d1 : Word16) (h0 : solid d0 = true) (h1 : solid d1 = true) :
    foregroundSkips mode d0 d1 = true := by
  simp [foregroundSkips, h0, h1]

/-- Every line RFG skips has a colour selected for RBG: the strips that make RFG skip it are the ones RBG takes its colour from (R88). -/
theorem isSome_skySelect_of_foregroundSkips (mode : Mode) (d0 d1 : Word16)
    (h : foregroundSkips mode d0 d1 = true) : (skySelect mode d0 d1).isSome = true := by
  cases mode with
  | strip0Only =>
    rw [foregroundSkips_strip0Only] at h
    rw [skySelect, isSome_skyOf, h]
  | preferStrip0 =>
    rw [foregroundSkips_of_prefer _ d0 d1 (.inl rfl), Bool.and_eq_true] at h
    obtain ⟨h0, -⟩ := h
    rw [isSome_skySelect_of_prefer _ d0 d1 (.inl rfl), h0, Bool.true_or]
  | preferStrip1 =>
    rw [foregroundSkips_of_prefer _ d0 d1 (.inr rfl), Bool.and_eq_true] at h
    obtain ⟨h0, -⟩ := h
    rw [isSome_skySelect_of_prefer _ d0 d1 (.inr rfl), h0, Bool.true_or]
  | strip1Only =>
    rw [foregroundSkips_strip1Only] at h
    rw [skySelect, isSome_skyOf, h]

/-- Control words of 0 are not solid, so nothing is selected in any mode (R86). -/
theorem skySelect_zero_words (mode : Mode) : skySelect mode 0 0 = none := by
  cases mode <;> rfl

/-! ### A render pass, as a whole -/

section
variable (p : PixelBuffer) (line : Nat → Option Line)

theorem pixAt_paint_of_none (y x : Nat) (h : line y = none) : pixAt (paint p line) y x = pixAt p y x := by
  rw [pixAt_paint, h]

theorem pixAt_paint_of_some (y x : Nat) (l : Line) (h : line y = some l) (hy : y < 224) (hx : x < 320) :
    pixAt (paint p line) y x = l[x] := by
  rw [pixAt_paint, h]
  exact dif_pos ⟨hy, hx⟩

/-- Only the 224 lines of the buffer count. -/
theorem paint_congr (line' : Nat → Option Line) (h : ∀ y, y < 224 → line y = line' y) :
    paint p line = paint p line' := by
  apply pix_ext
  intro y x hy _
  rw [pixAt_paint, pixAt_paint, h y hy]

theorem paint_of_none (h : ∀ y, y < 224 → line y = none) : paint p line = p := by
  apply pix_ext
  intro y x hy _
  exact pixAt_paint_of_none p line y x (h y hy)

/-- Painting the same lines over themselves changes nothing. -/
theorem paint_paint : paint (paint p line) line = paint p line := by
  apply pix_ext
  intro y x hy hx
  cases h : line y with
  | none => exact pixAt_paint_of_none _ line y x h
  | some l => rw [pixAt_paint_of_some _ line y x l h hy hx, pixAt_paint_of_some _ line y x l h hy hx]

end

/-! ### The background pass -/

/-- The colour RBG selects for line `y`, if it selects one (R85, R86). -/
def selectedSky (s : State) (y : Nat) : Option (BitVec 7) :=
  skySelect (modeOf s.ctrl) (ctrlWord s .zero y) (ctrlWord s .one y)

/-- A pixel after RBG: the selected colour OR `OFF3`, or what it was where none is selected (R87). -/
theorem pixAt_effect_rbg (s : State) (y x : Nat) (hy : y < 224) (hx : x < 320) :
    pixAt (effect .rbg s).pix y x = ((selectedSky s y).map (skyColour s.off3)).or (pixAt s.pix y x) := by
  cases h : selectedSky s y with
  | none => exact pixAt_paint_of_none _ _ y x (backgroundLine_none s y h)
  | some c => exact (pixAt_paint_of_some _ _ y x _ (backgroundLine_some s y c h) hy hx).trans (flatLine_getElem _ x hx)

/-- RBG reads neither the buffer nor the response, and so a second RBG changes nothing (R89). -/
theorem effect_rbg_effect_rbg (s : State) : effect .rbg (effect .rbg s) = effect .rbg s := by
  have hpix : (effect .rbg (effect .rbg s)).pix = (effect .rbg s).pix := paint_paint s.pix (backgroundLine s)
  exact congrArg (fun p => answer (setPix s p) noResponse) hpix

/-- The control word of a line of the buffer is read without wrapping (R34). -/
theorem ctrlWord_of_lt (s : State) (strip : Strip) (y : Nat) (hy : y < 224) :
    ctrlWord s strip y = s.ramL.read (ctrlBase strip + y) := by
  apply latchedWord_of_lt
  cases strip <;> simp only [ctrlBase, bankWords] <;> omega

/-- RBG reads words 0x000 to 0x0DF for strip 0 and 0x100 to 0x1DF for strip 1 (R34, R89). -/
theorem ctrlWord_congr (s s' : State)
    (h : ∀ i, i < 0xE0 → s.ramL.read i = s'.ramL.read i ∧ s.ramL.read (0x100 + i) = s'.ramL.read (0x100 + i))
    (strip : Strip) (y : Nat) (hy : y < 224) : ctrlWord s strip y = ctrlWord s' strip y := by
  obtain ⟨hzero, hone⟩ := h y hy
  rw [ctrlWord_of_lt s strip y hy, ctrlWord_of_lt s' strip y hy]
  cases strip with
  | zero => simpa only [ctrlBase, Nat.zero_add] using hzero
  | one => exact hone

/-! ### The foreground pass -/

/-- The colour step 4 makes of the two codes shown at pixel `x` of line `y` (R96, R97). -/
def shownColour (s : State) (y x : Nat) : Word16 :=
  pixelColour s.cfg (modeOf s.ctrl) (colourTable s .zero y) (colourTable s .one y)
    (shownCode s .zero y x) (shownCode s .one y x)

/-- Entry `i` of the raster loop is drawn with both cursors stepped `i` times (R98). -/
theorem rasterEntries_getElem (pixel : Column → Column → Word16) (n : Nat) (h0 h1 : Column) (i : Nat)
    (hi : i < (rasterEntries pixel n h0 h1).length) :
    (rasterEntries pixel n h0 h1)[i] = some (pixel (h0 + BitVec.ofNat 12 i) (h1 + BitVec.ofNat 12 i)) := by
  induction n generalizing h0 h1 i with
  | zero => simp [rasterEntries] at hi
  | succ n ih =>
    cases i with
    | zero => simp [rasterEntries]
    | succ i =>
      have hstep (h : Column) : h + 1 + BitVec.ofNat 12 i = h + BitVec.ofNat 12 (i + 1) := by
        rw [Nat.add_comm i 1, BitVec.ofNat_add, ← BitVec.add_assoc]
        rfl
      simp only [rasterEntries, List.getElem_cons_succ, ih, hstep]

theorem rasterLine_getElem_eq_stepped (pixel : Column → Column → Word16) (h0 h1 : Column) (x : Nat) (hx : x < 320) :
    (rasterLine pixel h0 h1)[x] = some (pixel (h0 + BitVec.ofNat 12 x) (h1 + BitVec.ofNat 12 x)) := by
  rw [rasterLine_getElem, rasterEntries_getElem]

/-- A pixel after RFG: the shown colour where its line is drawn, what it was where the line is skipped (R90). -/
theorem pixAt_effect_rfg (s : State) (y x : Nat) (hy : y < 224) (hx : x < 320) :
    pixAt (effect .rfg s).pix y x = if drawn s y then some (shownColour s y x) else pixAt s.pix y x := by
  cases h : foregroundSkips (modeOf s.ctrl) (ctrlWord s .zero y) (ctrlWord s .one y) with
  | true =>
    rw [if_neg (by simp [drawn, h])]
    exact pixAt_paint_of_none _ _ y x (foregroundLine_skipped s y h)
  | false =>
    rw [if_pos (by simp [drawn, h])]
    exact (pixAt_paint_of_some _ _ y x _ (foregroundLine_drawn s y h) hy hx).trans
      (rasterLine_getElem_eq_stepped _ _ _ x hx)

/-! ### A frame: RBG, then RFG -/

/-- A pixel after a frame: RFG reads nothing RBG writes, so it draws what it would have drawn alone, and skipped lines are RBG's (R88). -/
theorem pixAt_frame (s : State) (y x : Nat) (hy : y < 224) (hx : x < 320) :
    pixAt (effect .rfg (effect .rbg s)).pix y x =
      if drawn s y then some (shownColour s y x) else pixAt (effect .rbg s).pix y x :=
  pixAt_effect_rfg (effect .rbg s) y x hy hx

/-- RBG fills every line RFG skips (R88). -/
theorem isSome_selectedSky_of_not_drawn (s : State) (y : Nat) (h : drawn s y = false) :
    (selectedSky s y).isSome = true :=
  isSome_skySelect_of_foregroundSkips _ _ _ (by simpa [drawn] using h)

theorem isSome_pixAt_effect_rbg (s : State) (y x : Nat) (hy : y < 224) (hx : x < 320)
    (h : (selectedSky s y).isSome = true) : (pixAt (effect .rbg s).pix y x).isSome = true := by
  rw [pixAt_effect_rbg s y x hy hx, Option.isSome_or, Option.isSome_map, h, Bool.true_or]

theorem drawn_eq_false_of_both_solid (s : State) (y : Nat) (h0 : solid (ctrlWord s .zero y) = true)
    (h1 : solid (ctrlWord s .one y) = true) : drawn s y = false := by
  rw [drawn, foregroundSkips_of_both_solid _ _ _ h0 h1, Bool.not_true]

/-- In modes 1 and 2 a line with exactly one solid strip is drawn by RFG and filled by RBG (R88). -/
theorem drawn_and_selectedSky_of_one_solid (s : State) (y : Nat)
    (hmode : modeOf s.ctrl = .preferStrip0 ∨ modeOf s.ctrl = .preferStrip1)
    (hsolid : solid (ctrlWord s .zero y) ≠ solid (ctrlWord s .one y)) :
    drawn s y = true ∧ (selectedSky s y).isSome = true := by
  have hexactlyOne : ∀ a b : Bool, a ≠ b → (a && b) = false ∧ (a || b) = true := by decide
  obtain ⟨hnotBoth, hone⟩ := hexactlyOne _ _ hsolid
  rw [drawn, foregroundSkips_of_prefer _ _ _ hmode, selectedSky, isSome_skySelect_of_prefer _ _ _ hmode, hnotBoth, hone]
  exact ⟨rfl, rfl⟩

theorem exec_frame_of_launched (s : State) (hs : s.launched = true) :
    exec .rbg s = .next (effect .rbg s) ∧ exec .rfg (effect .rbg s) = .next (effect .rfg (effect .rbg s)) :=
  ⟨exec_of_launched .rbg s (by simp) hs, exec_of_launched .rfg _ (by simp) (launched_effect .rbg s hs)⟩

/-! ### The obligations -/

/-- Settles O39, from `pixAt_effect_rbg`. -/
theorem rbgCompletes : Obligations.RbgCompletes := by
  intro s hs
  refine ⟨effect .rbg s, exec_of_launched .rbg s (by simp) hs, rfl, fun y x hy hx => ?_⟩
  rw [pixAt_effect_rbg s y x hy hx, selectedSky]
  cases skySelect (modeOf s.ctrl) (ctrlWord s .zero y) (ctrlWord s .one y) with
  | none => rfl
  | some c => rfl

/-- Settles O40: the lines RBG writes depend on its inputs alone, are none for control words of 0, and do not change by being written. -/
theorem backgroundDependsOnItsInputsAlone : Obligations.BackgroundDependsOnItsInputsAlone := by
  refine ⟨fun s s' hs hs' hwords hmode hoff3 hpix => ?_, fun s hs hwords => ?_, fun s hs => ?_⟩
  · refine ⟨_, _, exec_of_launched .rbg s (by simp) hs, exec_of_launched .rbg s' (by simp) hs', ?_⟩
    have hline (y : Nat) (hy : y < 224) : backgroundLine s y = backgroundLine s' y := by
      simp only [backgroundLine, modeOf_congr _ _ hmode, ctrlWord_congr s s' hwords _ y hy, hoff3]
    simp only [effect, answer_pix, setPix_pix, hpix, paint_congr s'.pix _ _ hline]
  · refine ⟨_, exec_of_launched .rbg s (by simp) hs, paint_of_none s.pix _ fun y hy => backgroundLine_none s y ?_⟩
    obtain ⟨hzero, hone⟩ := hwords y hy
    rw [ctrlWord_of_lt s .zero y hy, ctrlWord_of_lt s .one y hy, ctrlBase, Nat.zero_add, hzero, ctrlBase, hone]
    exact skySelect_zero_words _
  · refine ⟨effect .rbg s, exec_of_launched .rbg s (by simp) hs, ?_⟩
    rw [exec_of_launched .rbg _ (by simp) (launched_effect .rbg s hs), effect_rbg_effect_rbg]

/-- Settles O53: RFG skips the line, and RBG has filled it. -/
theorem bothSolidLinesBelongToTheBackground : Obligations.BothSolidLinesBelongToTheBackground := by
  intro s y hs hy h0 h1
  obtain ⟨hrbg, hrfg⟩ := exec_frame_of_launched s hs
  have hskipped : drawn s y = false := drawn_eq_false_of_both_solid s y h0 h1
  refine ⟨_, _, hrbg, hrfg, fun x hx => ⟨?_, ?_⟩⟩
  · rw [pixAt_frame s y x hy hx, hskipped, if_neg (by simp)]
  · exact isSome_pixAt_effect_rbg s y x hy hx (isSome_selectedSky_of_not_drawn s y hskipped)

/-- Settles O54: the line is filled by RBG, and then drawn by RFG as it would be without RBG. -/
theorem foregroundOverwritesOneSolidStrip : Obligations.ForegroundOverwritesOneSolidStrip := by
  intro s y hs hy hmode hsolid
  obtain ⟨hrbg, hrfg⟩ := exec_frame_of_launched s hs
  obtain ⟨hdrawn, hselected⟩ := drawn_and_selectedSky_of_one_solid s y hmode hsolid
  obtain ⟨k, hk⟩ := Option.isSome_iff_exists.1 hselected
  refine ⟨_, _, _, hrbg, hrfg, exec_of_launched .rfg s (by simp) hs, fun x hx => ⟨⟨k, ?_⟩, ?_, ?_⟩⟩
  · rw [pixAt_effect_rbg s y x hy hx, hk]
    rfl
  · rw [pixAt_frame s y x hy hx, pixAt_effect_rfg s y x hy hx, if_pos hdrawn, if_pos hdrawn]
  · rw [pixAt_effect_rfg s y x hy hx, if_pos hdrawn, Option.isSome_some]

/-- Settles O55: a line is drawn by RFG, or it has been filled by RBG. -/
theorem aFrameWritesEveryPixel : Obligations.AFrameWritesEveryPixel := by
  intro s hs
  refine ⟨_, runOps_of_launched [.rbg, .rfg] s (by simp) hs, fun y x hy hx => ?_⟩
  change (pixAt (effect .rfg (effect .rbg s)).pix y x).isSome = true
  rw [pixAt_frame s y x hy hx]
  cases h : drawn s y with
  | true => rfl
  | false => exact isSome_pixAt_effect_rbg s y x hy hx (isSome_selectedSky_of_not_drawn s y h)

/-- Settles O38, mode by mode. -/
theorem backgroundSelectionTable : Obligations.BackgroundSelectionTable := by
  intro ctrl d0 d1
  refine ⟨fun h => ?_, fun h => ?_, fun h => ?_, fun h => ?_⟩
  · rw [modeOf_eq_of_mod_four ctrl .strip0Only h]
    exact skyOf_eq_masked d0
  · rw [modeOf_eq_of_mod_four ctrl .preferStrip0 h]
    exact skyOf_or_eq_masked d0 d1
  · rw [modeOf_eq_of_mod_four ctrl .preferStrip1 h]
    exact skyOf_or_eq_masked d1 d0
  · rw [modeOf_eq_of_mod_four ctrl .strip1Only h]
    exact skyOf_eq_masked d1

end Sys2Proof.Machine

/-! PROOFS. The statements of 43_foreground.md: the lines RFG skips and the rows it draws from (R91), the colour tables (R93), the start columns (R94), the codes and colours of a pixel (R95 to R97), the raster loop (R98), and what the picture depends on and holds (R90, R96, R99).

A pixel after RFG is the shown colour or what it was (`pixAt_effect_rfg`). The shown colour is an entry of a strip's colour table for the code the strip shows, and both depend on that strip's inputs alone (`colourTable_congr`, `shownCode_congr`): mode symmetry and the dependence on RFG's inputs follow from these two, and the palette ranges from the entries. -/

namespace Sys2Proof.Machine

/-! ### Fields of a word, as shifts and masks -/

/-- A field of a word, widened to the word again, is the word shifted down and masked. -/
theorem setWidth_extractLsb'_eq_shift_and {w : Nat} (x : BitVec w) (start n : Nat) :
    (x.extractLsb' start n).setWidth w = (x >>> start) &&& (BitVec.allOnes n).setWidth w := by
  apply BitVec.eq_of_getLsbD_eq
  intro i hi
  simp [hi, Bool.and_comm]

/-- A bit of a word, widened to the word again, is the word shifted down and masked. -/
theorem setWidth_ofBool_getLsbD {w : Nat} (x : BitVec w) (i : Nat) :
    (BitVec.ofBool (x.getLsbD i)).setWidth w = (x >>> i) &&& (1#1).setWidth w := by
  have hbit : BitVec.ofBool (x.getLsbD i) = x.extractLsb' i 1 := by
    apply BitVec.eq_of_getLsbD_eq
    intro j hj
    obtain rfl : j = 0 := by omega
    simp
  rw [hbit]
  exact setWidth_extractLsb'_eq_shift_and x i 1

theorem rowField_eq_masked (d : Word16) : rowField d = ((d >>> 1) &&& 0xff).toNat := by
  have hwidened : ((d.extractLsb' 1 8).setWidth 16).toNat = (d.extractLsb' 1 8).toNat :=
    BitVec.toNat_setWidth_of_le (by decide)
  rw [rowField, ← hwidened, setWidth_extractLsb'_eq_shift_and]
  rfl

theorem rowField_lt (d : Word16) : rowField d < 256 :=
  (d.extractLsb' 1 8).isLt

theorem colourBit_eq_masked (strip : Strip) (k : Nat) (c : Word16) :
    colourBit strip k c = (c >>> (colourBitBase strip + k)) &&& 1 :=
  setWidth_ofBool_getLsbD c _

theorem colourBit_lt (strip : Strip) (k : Nat) (c : Word16) : (colourBit strip k c).toNat < 2 := by
  rw [colourBit, BitVec.toNat_setWidth_of_le (by decide)]
  exact BitVec.isLt _

theorem backgroundField_eq_masked (c : Word16) : backgroundField c = (c >>> 8) &&& 0xF :=
  setWidth_extractLsb'_eq_shift_and c 8 4

theorem backgroundField_lt (c : Word16) : (backgroundField c).toNat < 16 := by
  rw [backgroundField, BitVec.toNat_setWidth_of_le (by decide)]
  exact BitVec.isLt _

theorem stripeVisible_iff (d : Word16) : stripeVisible d = true ↔ d &&& 0x200 ≠ 0 :=
  getLsbD_iff_and_twoPow_ne_zero d 9 (by decide)

/-- Bit `i` of a byte, tested by a shift (R97). -/
theorem getLsbD_iff_shift_and_one (b : Byte) (i : Nat) : b.getLsbD i = true ↔ (b >>> i) &&& 1 = 1 := by
  have hbit : (b >>> i) &&& 1 = (BitVec.ofBool (b.getLsbD i)).setWidth 8 := (setWidth_ofBool_getLsbD b i).symm
  rw [hbit]
  cases b.getLsbD i <;> decide

/-! ### The surface row and the codes -/

theorem surfaceRow_of_solid (strip : Strip) (d : Word16) (h : solid d = true) : surfaceRow strip d = 512 :=
  if_pos h

theorem surfaceRow_eq_masked (strip : Strip) (d : Word16) :
    surfaceRow strip d = if d &&& 0x800 ≠ 0 then 512 else bankRow strip + ((d >>> 1) &&& 0xff).toNat := by
  simp only [surfaceRow, solid_iff, rowField_eq_masked]

/-- A strip draws from its own bank or from the synthetic row (R91). -/
theorem surfaceRow_mem (strip : Strip) (d : Word16) :
    (bankRow strip ≤ surfaceRow strip d ∧ surfaceRow strip d < bankRow strip + 256) ∨ surfaceRow strip d = 512 := by
  have hrow := rowField_lt d
  unfold surfaceRow
  split <;> omega

theorem codeAt_of_ge (surf : SurfaceTable) (row : Nat) (h : Column) (hh : 512 ≤ h.toNat) : codeAt surf row h = 3 :=
  if_neg (by omega)

theorem codeAt_of_lt (surf : SurfaceTable) (row : Nat) (h : Column) (hh : h.toNat < 512) :
    codeAt surf row h = surfAt surf row h.toNat :=
  if_pos hh

theorem codeAt_congr (surf surf' : SurfaceTable) (row : Nat) (h : Column)
    (hrow : ∀ col, surfAt surf row col = surfAt surf' row col) : codeAt surf row h = codeAt surf' row h := by
  simp only [codeAt, hrow]

theorem codeAt_offRoad (surf : SurfaceTable) (hsurf : SurfLegal surf) (h : Column) : codeAt surf 512 h = 3 := by
  unfold codeAt
  split
  · exact hsurf.offRoad _
  · rfl

theorem legalCode_codeAt (surf : SurfaceTable) (hsurf : SurfLegal surf) (row : Nat) (h : Column) :
    legalCode (codeAt surf row h) := by
  unfold codeAt
  split
  · exact hsurf.codes row _
  · simp [legalCode]

/-! ### The start column and the cursors -/

/-- The start column over the integers (R94). -/
theorem toNat_startCursor (s : State) (strip : Strip) (y : Nat) :
    ((startCursor s strip y).toNat : Int) =
      (((rawPosition s strip y).toNat : Int) - ((s.cfg.phase : Int) + (s.xoff.toNat : Int))) % 4096 := by
  rw [startCursor, BitVec.toNat_ofInt]
  exact Int.toNat_of_nonneg (Int.emod_nonneg _ (by decide))

/-- Of `XOFF` only bits 11:0 reach the start column (R19, R94). -/
theorem startCursor_congr (s s' : State) (strip : Strip) (y : Nat)
    (hposition : rawPosition s strip y = rawPosition s' strip y) (hphase : s.cfg.phase = s'.cfg.phase)
    (hxoff : s.xoff.extractLsb' 0 12 = s'.xoff.extractLsb' 0 12) : startCursor s strip y = startCursor s' strip y := by
  have hmod : s.xoff.toNat % 4096 = s'.xoff.toNat % 4096 := by
    simpa [BitVec.extractLsb'_toNat] using congrArg BitVec.toNat hxoff
  have hs := toNat_startCursor s strip y
  have hs' := toNat_startCursor s' strip y
  rw [← hposition, ← hphase] at hs'
  apply BitVec.eq_of_toNat_eq
  omega

theorem extractLsb'_and_fff (x : Word16) : (x &&& 0xFFF).extractLsb' 0 12 = x.extractLsb' 0 12 := by
  apply BitVec.eq_of_toNat_eq
  rw [BitVec.extractLsb'_toNat, BitVec.extractLsb'_toNat, BitVec.toNat_and]
  change (x.toNat &&& (2 ^ 12 - 1)) % 2 ^ 12 = x.toNat % 2 ^ 12
  rw [Nat.and_two_pow_sub_one_eq_mod, Nat.mod_mod]

/-- A cursor stepped `x` times, as a number (R98). -/
theorem column_add_ofNat (h : Column) (x : Nat) :
    h + BitVec.ofNat 12 x = BitVec.ofNat 12 ((h.toNat + x) % 4096) := by
  apply BitVec.eq_of_toNat_eq
  simp

/-! ### The colour of a pixel -/

/-- Step 4 shows strip 0's entry for its code or strip 1's for its own (R96). -/
theorem pixelColour_cases (cfg : Config) (mode : Mode) (ct0 ct1 : ColourTable) (p0 p1 : Code) :
    pixelColour cfg mode ct0 ct1 p0 p1 = colourEntry ct0 p0 ∨ pixelColour cfg mode ct0 ct1 p0 p1 = colourEntry ct1 p1 := by
  cases mode with
  | strip0Only => exact .inl rfl
  | strip1Only => exact .inr rfl
  | preferStrip0 | preferStrip1 => exact (ite_eq_or_eq _ _ _).symm

theorem strip1Wins_iff_masked (prio : Vector Byte 8) (p0 p1 : Code) :
    strip1Wins prio p0 p1 = true ↔ ((prio[p0.toNat]'p0.isLt) >>> p1.toNat) &&& 1 = 1 :=
  getLsbD_iff_shift_and_one _ _

/-- The codes that occur read one of the five entries of a colour table (R11, R23). -/
theorem colourEntry_of_legalCode (ct : ColourTable) (c : Code) (hc : legalCode c) :
    colourEntry ct c = ct.c0 ∨ colourEntry ct c = ct.c1 ∨ colourEntry ct c = ct.c2 ∨ colourEntry ct c = ct.c3 ∨
      colourEntry ct c = ct.c7 := by
  rcases hc with rfl | rfl | rfl | rfl | rfl
  · exact .inl (colourEntry_zero ct)
  · exact .inr (.inl (colourEntry_one ct))
  · exact .inr (.inr (.inl (colourEntry_two ct)))
  · exact .inr (.inr (.inr (.inl (colourEntry_three ct))))
  · exact .inr (.inr (.inr (.inr (colourEntry_seven ct))))

/-- A strip's colour table with its bits written as shifts and masks (R93). -/
theorem colourTable_eq_masked (s : State) (strip : Strip) (y : Nat) :
    let p := stripParams s.cfg strip
    let bit := fun k => (colourSelect s strip y >>> (colourBitBase strip + k)) &&& 1
    colourTable s strip y =
      { c0 := s.off1 ^^^ p.sel0 ^^^ bit 0
        c1 := s.off1 ^^^ p.sel1 ^^^ bit 1
        c2 := s.off1 ^^^ p.sel2 ^^^ bit 2
        c3 :=
          if ctrlWord s strip y &&& 0x200 ≠ 0 then s.off1 ^^^ p.sel0 ^^^ bit 0
          else s.off2 ^^^ p.bgSel ^^^ ((colourSelect s strip y >>> 8) &&& 0xF)
        c7 := s.off1 ^^^ p.sel7 ^^^ bit 3 } := by
  simp only [colourTable, roadColour, colourBit_eq_masked, backgroundField_eq_masked, stripeVisible_iff]

/-! ### What a strip shows depends on its inputs alone -/

section
variable (s s' : State) (strip : Strip) (y : Nat)

theorem colourTable_congr (hin : SameStripInputs strip y s s') (hcfg : s.cfg = s'.cfg) (hoff1 : s.off1 = s'.off1)
    (hoff2 : s.off2 = s'.off2) : colourTable s strip y = colourTable s' strip y := by
  simp only [colourTable, hcfg, hoff1, hoff2, hin.control, hin.background, hin.colours 0 (by decide),
    hin.colours 1 (by decide), hin.colours 2 (by decide), hin.colours 3 (by decide)]

theorem shownCode_congr (hin : SameStripInputs strip y s s') (hcfg : s.cfg = s'.cfg)
    (hxoff : s.xoff.extractLsb' 0 12 = s'.xoff.extractLsb' 0 12) (x : Nat) :
    shownCode s strip y x = shownCode s' strip y x := by
  rw [shownCode, shownCode, hin.control, startCursor_congr s s' strip y hin.position (by rw [hcfg]) hxoff]
  exact codeAt_congr _ _ _ _ fun col => hin.rows _ col (surfaceRow_mem strip _)

/-- In a mode of one strip that strip's solid bit alone makes RFG skip a line (R96). -/
theorem drawn_of_onlyMode (hmode : modeOf s.ctrl = onlyMode strip) : drawn s y = !solid (ctrlWord s strip y) := by
  rw [drawn, hmode]
  cases strip with
  | zero => exact congrArg _ (foregroundSkips_strip0Only _ _)
  | one => exact congrArg _ (foregroundSkips_strip1Only _ _)

/-- In a mode of one strip every pixel has that strip's colour (R96). -/
theorem shownColour_of_onlyMode (hmode : modeOf s.ctrl = onlyMode strip) (x : Nat) :
    shownColour s y x = colourEntry (colourTable s strip y) (shownCode s strip y x) := by
  rw [shownColour, hmode]
  cases strip <;> rfl

end

theorem pixAt_of_column_ge (p : PixelBuffer) (y x : Nat) (hx : 320 ≤ x) : pixAt p y x = none := by
  rw [pixAt_eq, dif_neg (by omega)]

/-- A line RFG draws alike in two states, or skips in both over the same old pixels, is the same line after it. -/
theorem pixAt_effect_rfg_congr (s s' : State) (y : Nat) (hy : y < 224) (hdrawn : drawn s y = drawn s' y)
    (hcolour : ∀ x, shownColour s y x = shownColour s' y x) (hpix : ∀ x, pixAt s.pix y x = pixAt s'.pix y x) (x : Nat) :
    pixAt (effect .rfg s).pix y x = pixAt (effect .rfg s').pix y x := by
  by_cases hx : x < 320
  · rw [pixAt_effect_rfg s y x hy hx, pixAt_effect_rfg s' y x hy hx, hdrawn, hcolour, hpix]
  · rw [pixAt_of_column_ge _ y x (by omega), pixAt_of_column_ge _ y x (by omega)]

/-! ### What the foreground pass reads -/

/-- Reads of the latched bank wrap, so they see its 2048 words only (R100). -/
theorem latchedWord_congr (s s' : State) (h : ∀ i, i < 2048 → s.ramL.read i = s'.ramL.read i) (i : Nat) :
    latchedWord s i = latchedWord s' i :=
  h _ (Nat.mod_lt i (by decide))

/-- `MODE` and `DIRECT` are bits of `CTRL[2:0]` (R53). -/
theorem modeOf_and_direct_congr (ctrl ctrl' : Byte) (h : ctrl.extractLsb' 0 3 = ctrl'.extractLsb' 0 3) :
    modeOf ctrl = modeOf ctrl' ∧ direct ctrl = direct ctrl' := by
  have hmode (c : Byte) : (c.extractLsb' 0 3).extractLsb' 0 2 = c.extractLsb' 0 2 := by
    apply BitVec.eq_of_getLsbD_eq
    intro i hi
    simp [hi]
  have hdirect (c : Byte) : (c.extractLsb' 0 3).getLsbD 2 = direct c := by simp [direct]
  constructor
  · exact modeOf_congr _ _ (by rw [← hmode, h, hmode])
  · rw [← hdirect, h, hdirect]

/-- Equal latched words, parameters, direct bits and surface tables give a strip equal inputs on every line (R91, R92, R99). -/
theorem sameStripInputs_of_reads (s s' : State) (hword : ∀ i, latchedWord s i = latchedWord s' i) (hcfg : s.cfg = s'.cfg)
    (hdirect : direct s.ctrl = direct s'.ctrl) (hsurf : s.surf = s'.surf) (strip : Strip) (y : Nat) :
    SameStripInputs strip y s s' := by
  have hcontrol : ctrlWord s strip y = ctrlWord s' strip y := hword _
  have hindex : tableIndex s strip y = tableIndex s' strip y := by simp only [tableIndex, hdirect, hcfg, hcontrol]
  have hselect : colourSelect s strip y = colourSelect s' strip y := by simp only [colourSelect, hcfg, hindex, hword]
  exact
    { control := hcontrol
      position := by simp only [rawPosition, hcfg, hindex, hword]
      colours := fun k _ => by rw [hselect]
      background := by rw [hselect]
      rows := fun row col _ => by rw [hsurf] }

/-- RFG reads neither the buffer nor the response, and so a second RFG changes nothing (R99). -/
theorem effect_rfg_effect_rfg (s : State) : effect .rfg (effect .rfg s) = effect .rfg s := by
  have hpix : (effect .rfg (effect .rfg s)).pix = (effect .rfg s).pix := paint_paint s.pix (foregroundLine s)
  exact congrArg (fun p => answer (setPix s p) noResponse) hpix

/-! ### The palette ranges -/

/-- The two ranges of R61 and R99(f): road colours, and background-fallback colours. -/
def InForegroundPalette (v : Word16) : Prop :=
  (0x0400 ≤ v.toNat ∧ v.toNat ≤ 0x040F) ∨ (0x0420 ≤ v.toNat ∧ v.toNat ≤ 0x043F)

/-- XOR with two values below `2 ^ n` stays in an offset's block of `2 ^ n` values. -/
theorem xor_xor_div_two_pow (n : Nat) (off a b : Word16) (ha : a.toNat < 2 ^ n) (hb : b.toNat < 2 ^ n) :
    (off ^^^ a ^^^ b).toNat / 2 ^ n = off.toNat / 2 ^ n := by
  rw [BitVec.toNat_xor, BitVec.toNat_xor, Nat.xor_div_two_pow, Nat.xor_div_two_pow, Nat.div_eq_of_lt ha,
    Nat.div_eq_of_lt hb, Nat.xor_zero, Nat.xor_zero]

theorem inForegroundPalette_roadColour (sel bit : Word16) (hsel : sel.toNat < 16) (hbit : bit.toNat < 2) :
    InForegroundPalette (roadColour 0x0400 sel bit) := by
  have hblock : (roadColour 0x0400 sel bit).toNat / 16 = 0x40 := xor_xor_div_two_pow 4 0x0400 sel bit hsel (by omega)
  exact .inl (by omega)

theorem inForegroundPalette_background (sel bg : Word16) (hsel : sel.toNat < 32) (hbg : bg.toNat < 16) :
    InForegroundPalette (0x0420 ^^^ sel ^^^ bg) := by
  have hblock : ((0x0420 : Word16) ^^^ sel ^^^ bg).toNat / 32 = 0x21 := xor_xor_div_two_pow 5 0x0420 sel bg hsel (by omega)
  exact .inr (by omega)

/-- The bits the default selectors can set: the four of the road range, the five of the background range (decision D9). -/
theorem defaultSelectors_lt (p : StripParams) (hp : p = defaultStrip0 ∨ p = defaultStrip1) :
    (p.sel0.toNat < 16 ∧ p.sel1.toNat < 16 ∧ p.sel2.toNat < 16 ∧ p.sel7.toNat < 16) ∧ p.bgSel.toNat < 32 := by
  rcases hp with rfl | rfl <;> decide

/-- Every entry of a colour table lies in the two ranges, entry by entry (R99). -/
theorem inForegroundPalette_colourEntry (s : State) (strip : Strip) (y : Nat) (c : Code) (hc : legalCode c)
    (hparams : stripParams s.cfg strip = defaultStrip0 ∨ stripParams s.cfg strip = defaultStrip1)
    (hoff1 : s.off1 = 0x0400) (hoff2 : s.off2 = 0x0420) :
    InForegroundPalette (colourEntry (colourTable s strip y) c) := by
  obtain ⟨⟨hsel0, hsel1, hsel2, hsel7⟩, hbgSel⟩ := defaultSelectors_lt _ hparams
  have hroad (sel : Word16) (hsel : sel.toNat < 16) (k : Nat) :
      InForegroundPalette (roadColour s.off1 sel (colourBit strip k (colourSelect s strip y))) := by
    rw [hoff1]
    exact inForegroundPalette_roadColour sel _ hsel (colourBit_lt strip k _)
  rcases colourEntry_of_legalCode (colourTable s strip y) c hc with h | h | h | h | h <;> rw [h, colourTable]
  · exact hroad _ hsel0 0
  · exact hroad _ hsel1 1
  · exact hroad _ hsel2 2
  · split
    · exact hroad _ hsel0 0
    · rw [hoff2]
      exact inForegroundPalette_background _ _ hbgSel (backgroundField_lt _)
  · exact hroad _ hsel7 3

/-! ### The default priority rows -/

/-- The first default priority row, place by place; the ROM has no part in it (R97, decision D12). -/
theorem strip1Wins_default_mode1 (p0 p1 : Code) (h0 : legalCode p0) (h1 : legalCode p1) :
    strip1Wins (defaultConfig #[]).prioMode1 p0 p1 = true ↔
      (p1 = 7 ∧ p0 ≠ 7) ∨ (p1 = 0 ∧ (p0 = 1 ∨ p0 = 2)) ∨ (p0 = 3 ∧ (p1 = 0 ∨ p1 = 1 ∨ p1 = 2)) := by
  rcases h0 with rfl | rfl | rfl | rfl | rfl <;> rcases h1 with rfl | rfl | rfl | rfl | rfl <;> decide

/-- The second default priority row, place by place (R97, decision D12). -/
theorem strip1Wins_default_mode2 (p0 p1 : Code) (h0 : legalCode p0) (h1 : legalCode p1) :
    strip1Wins (defaultConfig #[]).prioMode2 p0 p1 = true ↔ p1 = 7 ∨ (p1 = 0 ∧ p0 ≠ 7) ∨ p0 = 3 := by
  rcases h0 with rfl | rfl | rfl | rfl | rfl <;> rcases h1 with rfl | rfl | rfl | rfl | rfl <;> decide

/-! ### The obligations -/

/-- Settles O41, from `pixAt_effect_rfg`. -/
theorem rfgCompletes : Obligations.RfgCompletes := by
  intro s hs
  exact ⟨_, exec_of_launched .rfg s (by simp) hs, rfl, pixAt_effect_rfg s⟩

/-- Settles O42. -/
theorem lineSkipAndSurfaceRow : Obligations.LineSkipAndSurfaceRow := by
  refine ⟨fun s y hs h0 h1 => ?_, fun d => ⟨surfaceRow_eq_masked .zero d, surfaceRow_eq_masked .one d⟩⟩
  refine ⟨_, exec_of_launched .rfg s (by simp) hs, fun x => ?_⟩
  have hskips := foregroundSkips_of_both_solid (modeOf s.ctrl) _ _ ((solid_iff _).2 h0) ((solid_iff _).2 h1)
  exact pixAt_paint_of_none _ _ y x (foregroundLine_skipped s y hskips)

/-- Settles O44: the table of each strip, with its colour bits from bit 0 or from bit 4 on. -/
theorem colourTableEntries : Obligations.ColourTableEntries := by
  intro s y c0 c1 ct0 ct1
  have h0 := colourTable_eq_masked s .zero y
  have h1 := colourTable_eq_masked s .one y
  simp only [ct0, ct1, h0, h1]
  exact ⟨rfl, rfl, rfl, rfl, rfl, rfl, rfl, rfl, rfl, rfl⟩

/-- Settles O45. -/
theorem phaseAdjustment : Obligations.PhaseAdjustment := by
  intro s strip y
  exact ⟨toNat_startCursor s strip y, startCursor_congr _ _ strip y rfl rfl (extractLsb'_and_fff s.xoff).symm⟩

/-- Settles O47. -/
theorem cursorsAdvanceInLockstepModulo4096 : Obligations.CursorsAdvanceInLockstepModulo4096 := by
  intro pixel h0 h1 x hx
  rw [rasterLine_getElem_eq_stepped, column_add_ofNat, column_add_ofNat]

/-- Settles O49: whether the line is drawn, and every colour on it, comes from the strip shown. -/
theorem oneStripModesIgnoreTheOtherStrip : Obligations.OneStripModesIgnoreTheOtherStrip := by
  intro strip s s' y hs hs' hy hmode hmode' hcfg hoff1 hoff2 hxoff hin hpix
  refine ⟨_, _, exec_of_launched .rfg s (by simp) hs, exec_of_launched .rfg s' (by simp) hs', ?_⟩
  refine pixAt_effect_rfg_congr s s' y hy ?_ (fun x => ?_) hpix
  · rw [drawn_of_onlyMode s strip y hmode, drawn_of_onlyMode s' strip y hmode', hin.control]
  · rw [shownColour_of_onlyMode s strip y hmode, shownColour_of_onlyMode s' strip y hmode',
      colourTable_congr s s' strip y hin hcfg hoff1 hoff2, shownCode_congr s s' strip y hin hcfg (by rw [hxoff])]

/-- Settles O50: the inputs named give both strips the same inputs on every line, and RFG does not read what it writes. -/
theorem foregroundDependsOnItsInputsAlone : Obligations.ForegroundDependsOnItsInputsAlone := by
  constructor
  · intro s s' hs hs' hcfg hbank hctrl hoff1 hoff2 hxoff hsurf hpix
    refine ⟨_, _, exec_of_launched .rfg s (by simp) hs, exec_of_launched .rfg s' (by simp) hs', ?_⟩
    obtain ⟨hmode, hdirect⟩ := modeOf_and_direct_congr _ _ hctrl
    have hin := sameStripInputs_of_reads s s' (latchedWord_congr s s' hbank) hcfg hdirect hsurf
    have htable (strip : Strip) (y : Nat) := colourTable_congr s s' strip y (hin strip y) hcfg hoff1 hoff2
    have hcode (strip : Strip) (y : Nat) := shownCode_congr s s' strip y (hin strip y) hcfg hxoff
    refine pix_ext _ _ fun y x hy _ => pixAt_effect_rfg_congr s s' y hy ?_ (fun x => ?_) (fun x => by rw [hpix]) x
    · simp only [drawn, hmode, (hin _ y).control]
    · simp only [shownColour, hcfg, hmode, htable, hcode]
  · intro s hs
    refine ⟨_, exec_of_launched .rfg s (by simp) hs, ?_⟩
    rw [exec_of_launched .rfg _ (by simp) (launched_effect .rfg s hs), effect_rfg_effect_rfg]

/-- Settles O51: a drawn pixel is an entry of one of the two colour tables. -/
theorem foregroundPaletteRange : Obligations.ForegroundPaletteRange := by
  intro s hs hsurf hstrip0 hstrip1 hoff1 hoff2
  refine ⟨_, exec_of_launched .rfg s (by simp) hs, fun y x hy hx hdrawn => ⟨shownColour s y x, ?_, ?_⟩⟩
  · rw [pixAt_effect_rfg s y x hy hx, if_pos hdrawn]
  · change InForegroundPalette (shownColour s y x)
    rcases pixelColour_cases s.cfg (modeOf s.ctrl) (colourTable s .zero y) (colourTable s .one y)
      (shownCode s .zero y x) (shownCode s .one y x) with h | h <;> rw [shownColour, h]
    · exact inForegroundPalette_colourEntry s .zero y _ (legalCode_codeAt _ hsurf _ _) (.inl hstrip0) hoff1 hoff2
    · exact inForegroundPalette_colourEntry s .one y _ (legalCode_codeAt _ hsurf _ _) (.inr hstrip1) hoff1 hoff2

/-- Settles O46. -/
theorem pixelCodeLookup : Obligations.PixelCodeLookup := by
  refine ⟨fun surf row h => ⟨codeAt_of_ge surf row h, codeAt_of_lt surf row h⟩, fun s strip y x hsurf hsolid => ?_⟩
  rw [shownCode, surfaceRow_of_solid strip _ hsolid]
  exact codeAt_offRoad s.surf hsurf _

/-- Settles O48. -/
theorem pixelColourByMode : Obligations.PixelColourByMode := by
  refine ⟨fun cfg ct0 ct1 p0 p1 => ⟨rfl, rfl, ?_, ?_⟩, fun _ p0 p1 h0 h1 =>
    ⟨strip1Wins_default_mode1 p0 p1 h0 h1, strip1Wins_default_mode2 p0 p1 h0 h1⟩⟩
  · simp only [pixelColour, strip1Wins_iff_masked]
  · simp only [pixelColour, strip1Wins_iff_masked]

end Sys2Proof.Machine

/-! PROOFS. The statements of 60_exceptions.md, section 1: every operation and every sequence of operations completes (R100), the frame protocol followed or not (R114).

`Ready` holds both premises under which the model answers a next state: a RESET performed (R111) and a ROM byte for RESET to decode (R112). So a ready state completes every operation with its effect (`exec_of_ready`), the effect is ready again (`ready_effect`), and a sequence completes with its effects one after another, RESET among them or not (`runOps_of_ready`). -/

namespace Sys2Proof.Machine

/-! ### One operation -/

/-- R112 does not refuse a RESET of a ready state. -/
theorem rom_isEmpty_of_ready (s : State) (hs : Ready s) : s.cfg.rom.toList.isEmpty = false := by
  obtain ⟨-, hrom⟩ := hs
  rw [List.isEmpty_eq_false_iff, ← List.length_pos_iff, Array.length_toList]
  omega

/-- A ready state completes every operation, RESET under R112's premise and the others under R111's. -/
theorem exec_of_ready (i : Instr) (s : State) (hs : Ready s) : exec i s = .next (effect i s) := by
  by_cases hi : i = .reset
  · subst hi
    exact exec_reset_of_rom s (rom_isEmpty_of_ready s hs)
  · exact exec_of_launched i s hi hs.1

/-- Every operation keeps both halves of the premise: `launched_effect` the first, `effect_cfg` the second. -/
theorem ready_effect (i : Instr) (s : State) (hs : Ready s) : Ready (effect i s) := by
  obtain ⟨hlaunched, hrom⟩ := hs
  refine ⟨launched_effect i s hlaunched, ?_⟩
  rwa [effect_cfg]

/-! ### A sequence of operations -/

theorem effects_cfg (is : List Instr) (s : State) : (effects is s).cfg = s.cfg := by
  induction is generalizing s with
  | nil => rfl
  | cons i is ih => rw [effects_cons, ih, effect_cfg]

theorem ready_effects (is : List Instr) (s : State) (hs : Ready s) : Ready (effects is s) := by
  obtain ⟨hlaunched, hrom⟩ := hs
  refine ⟨launched_effects is s hlaunched, ?_⟩
  rwa [effects_cfg]

/-- A sequence from a ready state completes with its effects. `runOps_of_launched` has no ROM premise and so excludes RESET; here RESET may stand anywhere in the sequence (R113). -/
theorem runOps_of_ready (is : List Instr) (s : State) (hs : Ready s) : runOps is s = .next (effects is s) := by
  induction is generalizing s with
  | nil => rfl
  | cons i is ih =>
    simp only [runOps, exec_of_ready i s hs, effects_cons]
    exact ih (effect i s) (ready_effect i s hs)

/-! ### The obligations -/

/-- Settles O8, the completed operation being its effect. -/
theorem everyOperationCompletes : Obligations.EveryOperationCompletes :=
  fun i s hs => ⟨effect i s, exec_of_ready i s hs, ready_effect i s hs, effect_cfg i s⟩

/-- Settles O9, by induction on the sequence in `runOps_of_ready`. -/
theorem everySequenceCompletes : Obligations.EverySequenceCompletes :=
  fun is s hs => ⟨effects is s, runOps_of_ready is s hs, ready_effects is s hs, effects_cfg is s⟩

end Sys2Proof.Machine

/-! PROOFS. The statements of 70_reset_and_hazards.md, sections 1 and 4: RESET (R110 to R113), and what the double buffer makes of a word not rewritten, of a frame without a swap and of a frame before any swap (R118, R119, vector V22).

A window write changes the writable bank and the response alone (`effects_of_writesWindow`), and a frame keeps nothing of the buffer it finds (`pixAt_frame_eq`). So a frame repeats across window writes. Before any swap the latched bank is the reset bank: control and position words of 0, on which both strips show the off-road code at every pixel. -/

namespace Sys2Proof.Machine

/-! ### RESET -/

theorem rom_isEmpty_eq_decide_size (s : State) : s.cfg.rom.toList.isEmpty = decide (s.cfg.rom.size = 0) := by
  rw [Bool.eq_iff_iff, List.isEmpty_iff_length_eq_zero, Array.length_toList, decide_eq_true_iff]

theorem exec_reset_of_size_ne_zero (s : State) (hrom : s.cfg.rom.size ≠ 0) : exec .reset s = .next (resetState s) :=
  exec_reset_of_rom s (by rw [rom_isEmpty_eq_decide_size, decide_eq_false hrom])

theorem exec_reset_of_size_eq_zero (s : State) (hrom : s.cfg.rom.size = 0) : exec .reset s = .refused .emptyRom :=
  if_pos (by rw [rom_isEmpty_eq_decide_size, decide_eq_true hrom])

/-- Of the state before it RESET keeps the parameters, the pixel buffer and what is issued, and nothing else (R110, R113). -/
theorem resetState_congr (s s' : State) (hcfg : s.cfg = s'.cfg) (hpix : s.pix = s'.pix)
    (hpending : s.pending = s'.pending) : resetState s = resetState s' := by
  simp only [resetState, hcfg, hpix, hpending]

theorem whenLaunched_of_not_launched (s t : State) (hs : s.launched = false) :
    whenLaunched s t = .refused .beforeFirstReset := by
  simp [whenLaunched, hs]

/-! ### Window writes -/

theorem ne_reset_of_writesWindow (i : Instr) (hi : writesWindow i = true) : i ≠ .reset := by
  rintro rfl
  exact Bool.noConfusion hi

/-- A window write changes the writable bank and the response alone (R73 to R75). -/
theorem effect_of_writesWindow (i : Instr) (s : State) (hi : writesWindow i = true) :
    ∃ bank resp, effect i s = { s with ramW := bank, resp := resp } := by
  cases i with
  | wr16 | wr16a | wr32a => exact ⟨_, _, rfl⟩
  | _ => exact Bool.noConfusion hi

/-- So do any number of them, one after another. -/
theorem effects_of_writesWindow (writes : List Instr) (s : State) (hwrites : ∀ i ∈ writes, writesWindow i = true) :
    ∃ bank resp, effects writes s = { s with ramW := bank, resp := resp } := by
  induction writes generalizing s with
  | nil => exact ⟨s.ramW, s.resp, rfl⟩
  | cons i writes ih =>
    obtain ⟨bank, resp, hfirst⟩ := effect_of_writesWindow i s (hwrites i (by simp))
    obtain ⟨bank', resp', hrest⟩ := ih (effect i s) fun j hj => hwrites j (by simp [hj])
    exact ⟨bank', resp', by rw [effects_cons, hrest, hfirst]⟩

theorem effects_append (is js : List Instr) (s : State) : effects (is ++ js) s = effects js (effects is s) :=
  List.foldl_append

/-- Window writes and then operations other than RESET complete from any state after a RESET (R111). -/
theorem runOps_writes_append (writes is : List Instr) (s : State) (hwrites : ∀ i ∈ writes, writesWindow i = true)
    (his : ∀ i ∈ is, i ≠ .reset) (hs : s.launched = true) :
    runOps (writes ++ is) s = .next (effects is (effects writes s)) := by
  rw [runOps_of_launched _ s (fun i hi => ?_) hs, effects_append]
  rcases List.mem_append.1 hi with hi | hi
  · exact ne_reset_of_writesWindow i (hwrites i hi)
  · exact his i hi

/-! ### A frame keeps nothing of the old buffer -/

/-- A pixel after a frame comes from the state beside the buffer: what RFG draws, or else the sky colour RBG is then sure to select (R88, R111). -/
theorem pixAt_frame_eq (s : State) (y x : Nat) (hy : y < 224) (hx : x < 320) :
    pixAt (effects [.rbg, .rfg] s).pix y x =
      if drawn s y then some (shownColour s y x) else (selectedSky s y).map (skyColour s.off3) := by
  refine (pixAt_frame s y x hy hx).trans ?_
  cases h : drawn s y with
  | true => rfl
  | false =>
    obtain ⟨c, hc⟩ := Option.isSome_iff_exists.1 (isSome_selectedSky_of_not_drawn s y h)
    rw [pixAt_effect_rbg s y x hy hx, hc]
    rfl

/-- What a frame draws does not change with the buffer, the writable bank and the response. -/
theorem frame_pix_of_other_buffer (s : State) (buffer : PixelBuffer) (bank : Memory) (resp : Word32) :
    (effects [.rbg, .rfg] { s with pix := buffer, ramW := bank, resp := resp }).pix = (effects [.rbg, .rfg] s).pix := by
  apply pix_ext
  intro y x hy hx
  rw [pixAt_frame_eq _ y x hy hx, pixAt_frame_eq s y x hy hx]
  rfl

/-! ### Rendering from the reset bank -/

section
variable (s : State) (hbank : s.ramL = bankReset)
include hbank

theorem latchedWord_of_bankReset (i : Nat) : latchedWord s i = 0 := by
  rw [latchedWord, hbank]
  rfl

theorem ctrlWord_of_bankReset (strip : Strip) (y : Nat) : ctrlWord s strip y = 0 :=
  latchedWord_of_bankReset s hbank _

/-- Neither strip is solid, so RFG draws every line, whatever the mode (R91, R96). -/
theorem drawn_of_bankReset (y : Nat) : drawn s y = true := by
  rw [drawn, ctrlWord_of_bankReset s hbank, ctrlWord_of_bankReset s hbank]
  cases modeOf s.ctrl <;> rfl

/-- Both cursors run from column 0xA08 to column 0xB47, all off the road (R94, R95, decision D11). -/
theorem shownCode_of_bankReset (hphase : s.cfg.phase = 0x5F8) (hxoff : s.xoff = 0) (strip : Strip) (y x : Nat)
    (hx : x < 320) : shownCode s strip y x = 3 := by
  have hposition : rawPosition s strip y = 0 := by
    rw [rawPosition, latchedWord_of_bankReset s hbank]
    rfl
  have hstart : startCursor s strip y = 0xA08 := by
    rw [startCursor, hposition, hphase, hxoff]
    rfl
  apply codeAt_of_ge
  rw [hstart, column_add_ofNat, BitVec.toNat_ofNat]
  have hcolumn : (0xA08 : Column).toNat = 0xA08 := rfl
  omega

/-- The off-road entry of a strip is its background-fallback colour, with no background bits set (R93, decisions D9, D10). -/
theorem colourEntry_three_of_bankReset (strip : Strip) (y : Nat) :
    colourEntry (colourTable s strip y) 3 = s.off2 ^^^ (stripParams s.cfg strip).bgSel := by
  have hselect : colourSelect s strip y = 0 := latchedWord_of_bankReset s hbank _
  rw [colourEntry_three, colourTable, ctrlWord_of_bankReset s hbank, hselect]
  exact BitVec.xor_zero

end

/-- The converse of `modeOf_eq_of_mod_four` (R53). -/
theorem mod_four_eq_modeNumber (ctrl : Byte) : ctrl.toNat % 4 = modeNumber (modeOf ctrl) := by
  have hmode : ∃ mode, ctrl.toNat % 4 = modeNumber mode := by
    have hlt : ctrl.toNat % 4 < 4 := Nat.mod_lt _ (by decide)
    interval_cases ctrl.toNat % 4
    exacts [⟨.strip0Only, rfl⟩, ⟨.preferStrip0, rfl⟩, ⟨.preferStrip1, rfl⟩, ⟨.strip1Only, rfl⟩]
  obtain ⟨mode, hmode⟩ := hmode
  rw [modeOf_eq_of_mod_four ctrl mode hmode, hmode]

/-- Between two off-road codes the default rows prefer the strip the background prefers (R97, decision D12). -/
theorem strip1Wins_default_offRoad (rom : Array Byte) :
    strip1Wins (defaultConfig rom).prioMode1 3 3 = false ∧ strip1Wins (defaultConfig rom).prioMode2 3 3 = true := by
  change strip1Wins (defaultConfig #[]).prioMode1 3 3 = false ∧ strip1Wins (defaultConfig #[]).prioMode2 3 3 = true
  decide

/-- The background-fallback colours of the default parameters, with no background bits set (decisions D9, D14). -/
theorem off2_xor_bgSel_default :
    (0x0420 : Word16) ^^^ defaultStrip0.bgSel = 0x0420 ∧ (0x0420 : Word16) ^^^ defaultStrip1.bgSel = 0x0430 := by
  decide

/-- Two off-road codes show strip 0's background in modes 0 and 1, strip 1's in modes 2 and 3 (R96, R97, decision D12). -/
theorem pixelColour_offRoad (rom : Array Byte) (ctrl : Byte) (ct0 ct1 : ColourTable) :
    pixelColour (defaultConfig rom) (modeOf ctrl) ct0 ct1 3 3 =
      if ctrl.toNat % 4 ≤ 1 then colourEntry ct0 3 else colourEntry ct1 3 := by
  obtain ⟨hmode1, hmode2⟩ := strip1Wins_default_offRoad rom
  rw [mod_four_eq_modeNumber]
  cases modeOf ctrl with
  | strip0Only | strip1Only => rfl
  | preferStrip0 => exact if_neg (by rw [hmode1]; decide)
  | preferStrip1 => exact if_pos hmode2

/-- A frame of vector V22: the reset bank, the default parameters and the reset values of `OFF2` and `XOFF` (R119). -/
theorem pixAt_frame_of_bankReset (s : State) (rom : Array Byte) (hbank : s.ramL = bankReset)
    (hcfg : s.cfg = defaultConfig rom) (hoff2 : s.off2 = 0x0420) (hxoff : s.xoff = 0) (y x : Nat) (hy : y < 224)
    (hx : x < 320) :
    pixAt (effects [.rbg, .rfg] s).pix y x = some (if s.ctrl.toNat % 4 ≤ 1 then 0x0420 else 0x0430) := by
  have hcode (strip : Strip) : shownCode s strip y x = 3 :=
    shownCode_of_bankReset s hbank (by rw [hcfg]; rfl) hxoff strip y x hx
  rw [pixAt_frame_eq s y x hy hx, if_pos (drawn_of_bankReset s hbank y), shownColour, hcode, hcode, hcfg,
    pixelColour_offRoad, colourEntry_three_of_bankReset s hbank, colourEntry_three_of_bankReset s hbank, hcfg, hoff2]
  obtain ⟨hstrip0, hstrip1⟩ := off2_xor_bgSel_default
  split
  · exact congrArg some hstrip0
  · exact congrArg some hstrip1

/-! ### The obligations -/

/-- Settles O10. -/
theorem beforeTheFirstResetOnlyResetRuns : Obligations.BeforeTheFirstResetOnlyResetRuns := by
  intro i s hs hi
  rw [exec_of_ne_reset i s hi, whenLaunched_of_not_launched s _ hs]

/-- Settles O14. -/
theorem resetCompletes : Obligations.ResetCompletes := by
  intro s hrom
  refine ⟨resetState s, exec_reset_of_size_ne_zero s hrom, fun row col hrow hcol => ?_,
    fun col _ => surfAt_decodeRom_offRoad s.cfg.rom col, fun _ => rfl, fun _ => rfl,
    rfl, rfl, rfl, rfl, rfl, rfl, rfl, rfl, rfl⟩
  rw [resetState_surf, surfAt_decodeRom, if_pos ⟨by omega, hcol⟩]

/-- Settles O15. -/
theorem resetRefusesAnEmptyRom : Obligations.ResetRefusesAnEmptyRom :=
  exec_reset_of_size_eq_zero

/-- Settles O16: both states are refused for their common ROM, or both are reset to one state. -/
theorem resetForgetsEverythingElse : Obligations.ResetForgetsEverythingElse := by
  intro s s' hcfg hpix hpending
  by_cases hrom : s.cfg.rom.size = 0
  · rw [exec_reset_of_size_eq_zero s hrom, exec_reset_of_size_eq_zero s' (by rwa [← hcfg])]
  · rw [exec_reset_of_size_ne_zero s hrom, exec_reset_of_size_ne_zero s' (by rwa [← hcfg]),
      resetState_congr s s' hcfg hpix hpending]

/-- Settles O35: after two swaps each bank is back, with the word written to it while it was the writable one. -/
theorem aWordNotRewrittenReturnsTwoSwapsLater : Obligations.AWordNotRewrittenReturnsTwoSwapsLater := by
  intro s a b v w hs hab
  have hlaunched := launched_effects [.wr16 a v, .rdctl, .wr16 b w, .rdctl] s hs
  exact ⟨_, _, runOps_of_launched _ s (by simp) hs, Memory.read_write_same s.ramL _ w,
    Memory.read_write_other s.ramL _ _ w hab, Memory.read_write_same s.ramW _ v,
    exec_of_launched .rdctl _ (by simp) hlaunched, Memory.read_write_same s.ramW _ v⟩

/-- Settles O56: after the writes the state is that of the first frame but for the buffer, the writable bank and the response. -/
theorem aFrameWithoutASwapRepeats : Obligations.AFrameWithoutASwapRepeats := by
  intro s writes hs hwrites
  have hframe : ∀ i ∈ [Instr.rbg, .rfg], i ≠ .reset := by simp
  obtain ⟨bank, resp, heffects⟩ := effects_of_writesWindow writes (effects [.rbg, .rfg] s) hwrites
  refine ⟨_, _, runOps_of_launched _ s hframe hs,
    runOps_writes_append writes _ _ hwrites hframe (launched_effects _ s hs), ?_⟩
  rw [heffects]
  exact frame_pix_of_other_buffer s _ bank resp

/-- Settles O57: RESET empties the latched bank, and neither the window writes nor WRCTL touches it. -/
theorem renderBeforeAnySwapIsFlat : Obligations.RenderBeforeAnySwapIsFlat := by
  intro s rom writes byte hcfg hrom hwrites
  have hreset : exec .reset s = .next (resetState s) := exec_reset_of_size_ne_zero s (by rwa [hcfg])
  obtain ⟨bank, resp, heffects⟩ := effects_of_writesWindow writes (resetState s) hwrites
  refine ⟨_, ?_, pixAt_frame_of_bankReset (effect (.wrctl byte) (effects writes (resetState s))) rom ?_ ?_ ?_ ?_⟩
  · simp only [List.cons_append, List.nil_append, runOps, hreset]
    exact runOps_writes_append writes _ _ hwrites (by simp) rfl
  · rw [heffects]
    rfl
  · rw [heffects]
    exact hcfg
  · rw [heffects]
    exact congrArg Config.off2Reset hcfg
  · rw [heffects]
    rfl

end Sys2Proof.Machine

/-! PROOFS. The transaction words written out in 95_test_vectors.md, section 3, and what the decoder makes of the ignored bits of a word (R51).

A word decodes to an operation exactly when it is the operation's own word but for the bits the operation ignores (`decode_ok_iff`). So a written-out word is checked against the encoder, whose words decode by `decode_encode`. -/

namespace Sys2Proof

/-! ### The ignored bits of a word -/

/-- An operation code with a mask of used bits is none of the reserved ones (R52, R56). -/
theorem code_le_of_usedMask (op : Byte) (m : Transaction) (h : usedMask op = some m) : op.toNat ≤ 0x0B := by
  unfold usedMask at h
  split at h
  case h_13 => cases h
  all_goals
    next hcode => omega

/-- The decoder inverted, in one equation: a word stands for the operation whose own word its used bits are (R51, R52). -/
theorem decode_ok_iff (t : Transaction) (i : Instr) :
    decode t = .ok i ↔ ∃ m, usedMask (opField t) = some m ∧ encode i = t &&& m := by
  refine ⟨encodeOfDecodeClearsOnlyIgnoredBits t i, ?_⟩
  rintro ⟨m, hmask, hi⟩
  obtain ⟨j, hj⟩ := reservedCodesAreRefusedAndOthersDecode.1 t (code_le_of_usedMask _ m hmask)
  obtain ⟨m', hmask', hj'⟩ := encodeOfDecodeClearsOnlyIgnoredBits t j hj
  obtain rfl : m = m' := Option.some.inj (hmask.symm.trans hmask')
  -- both operations have the one word `t &&& m`, and the encoder is injective
  calc decode t = .ok j := hj
    _ = decode (encode j) := (decode_encode j).symm
    _ = decode (encode i) := by rw [hj', hi]
    _ = .ok i := decode_encode i

/-! ### The obligation -/

/-- Settles O4: the first eight words are the encoder's own, and the last is the encoder's but for bits 31:16, which WR16 ignores. -/
theorem writtenOutWordsDecode : Obligations.WrittenOutWordsDecode :=
  ⟨decode_encode .reset,
    decode_encode (.wr16 0x040C 0x06E8),
    decode_encode (.wr16a 0x1002 0xBEEF),
    decode_encode (.wr32a 0x0FFE 0x12345678),
    decode_encode .rdctl,
    decode_encode (.wrctl 2),
    decode_encode .rbg,
    decode_encode .rfg,
    (decode_ok_iff _ (.wr16 0x10 0x1234)).2 ⟨0xFFFFFFFFFF0000FFFF#72, by decide, by decide⟩⟩

end Sys2Proof
